-- ==== Sys2Proof/Word.lean ====
section
/-! DEFINITION. The words of the part: bytes, packets, cells, stamps. -/

namespace Sys2Proof

/-- One byte of a link, a packet or a cell (R157, R175). -/
abbrev Byte := BitVec 8

/-- The 188 bytes of one transport packet, beginning with the sync byte (00_scope.md 4.2). -/
abbrev Packet := Vector Byte 188

/-- The 64 bytes of one cell: four header bytes, then 60 payload bytes (R157). -/
abbrev CellBytes := Vector Byte 64

/-- A System Time Counter value, modulo 2^32 (R2). -/
abbrev Stamp := BitVec 32

/-- A 13-bit packet identifier (R175). -/
abbrev Pid := BitVec 13

end Sys2Proof
end

