-- ==== Sys2Proof/Config.lean ====
section
/-! DEFINITION. What the part fixes: its periods, limits and sizes, and the values the spec leaves open. -/

namespace Sys2Proof.Config

/-- Ticks of 27 MHz in one millisecond (R2). -/
abbrev ticksPerMs : Nat := 27000

/-- Ticks of one cell position (R159), of the Agent's service interval (R179) and of one counted loss (R162). -/
abbrev cellTicks : Nat := 64

/-- The pacer's threshold: 27,000,000 ticks a second times 1504 bits a packet (R144). -/
abbrev pacerThreshold : Nat := 40608000000

/-- Where every statistics counter saturates (00_scope.md 4.5). -/
abbrev counterMax : Nat := 4294967295

/-- Where a clip count and a pilot error count saturate (R3, R75). -/
abbrev count16Max : Nat := 65535

/-- The clip count at which an interval has an overload (R6). -/
abbrev overloadClips : Nat := 17

/-- Milliseconds of the overload hold (R7). -/
abbrev overloadHoldMs : Nat := 50

/-- Ticks of low level after which mast protection trips: 2 ms (R14). -/
abbrev tripTicks : Nat := 54000

/-- Milliseconds of the SENSE measurement and of the SENSE wait (R37, R38). -/
abbrev senseMeasureMs : Nat := 20
abbrev senseWaitMs : Nat := 200

/-- Milliseconds of the SYNC and FEC_WAIT limits (R39, R48). -/
abbrev syncLimitMs : Nat := 150
abbrev fecLimitMs : Nat := 300

/-- Word results counted in SIGNAL (R45). -/
abbrev signalFrames : Nat := 6

/-- The pull-in range and the clamp of the frequency offset, in Hz (R39, R93). -/
abbrev offsetLimitHz : Nat := 250000

/-- The longest backoff interval in seconds (R52). -/
abbrev backoffMax : Nat := 32

/-- Paths an echo table holds at most (R63). -/
abbrev echoPaths : Nat := 8

/-- The modulus of a clock reference value: 2^33 times 300 (00_scope.md 4.4). -/
abbrev clockModulus : Nat := 2576980377600

/-- Entries of the Route Table (R97). -/
abbrev routeEntries : Nat := 256

/-- Buffers of one bank (R117). -/
abbrev bankBuffers : Nat := 128

/-- Requests a request queue holds and replies a reply queue holds at most (R176). -/
abbrev requestDepth : Nat := 4
abbrev replyDepth : Nat := 8

/-- Cells a stream transmit buffer holds at most (R153). -/
abbrev txDepth : Nat := 4

/-- The start offset of a cell in which no packet starts (R136). -/
abbrev noStart : Byte := 255

/-- A byte of a reply to which the spec gives no value (log entry 22): nothing constrains it.
The argument is State's counter of free values used. -/
opaque freeByte : Nat → Byte

/-- Whether a packet that R88 marks as delivered and R89 withholds is counted among the packets delivered: R88 and R89
read as yes, R91 and R95 as no. Nothing constrains it (log entry 33). -/
opaque countsWithheld : Bool

end Sys2Proof.Config
end

