-- ==== Sys2Proof/Syntax.lean ====
section
/-! DEFINITION. The commands of the part: one constructor of Instr for each row of spec/opcode_table.json, and the
operands they carry. -/

namespace Sys2Proof

/-- The number of a channel slot, 0 to 5 (R16). -/
abbrev SlotId := Fin 6

/-- The letter of a link and of its egress: link A and egress A belong together (00_scope.md 4.1). -/
inductive Side where
  | a
  | b
  deriving DecidableEq, Repr

/-- The RF inputs (R3). -/
inductive RfId where
  | rf0
  | rf1
  deriving DecidableEq, Repr

/-- The capture contexts (R187). -/
inductive CtxId where
  | c0
  | c1
  deriving DecidableEq, Repr

/-- What the board does to an auxiliary pin (R10): drives it, or leaves it floating. -/
inductive LineDrive where
  | low
  | high
  | floating
  deriving DecidableEq, Repr

/-- The reference that REF_SEL selects (R1, R184). -/
inductive RefSource where
  | crystal
  | external
  deriving DecidableEq, Repr

/-- Carrier mode (R34). -/
inductive CarrierMode where
  | s
  | l
  deriving DecidableEq, Repr

/-- Guard fraction: 1/4, 1/8, 1/16, 1/32 (R34). -/
inductive Guard where
  | g4
  | g8
  | g16
  | g32
  deriving DecidableEq, Repr

/-- Constellation (R17). -/
inductive Constellation where
  | qpsk
  | p16
  | p64
  deriving DecidableEq, Repr

/-- Code rate (R17). -/
inductive CodeRate where
  | r12
  | r23
  | r34
  | r56
  | r78
  deriving DecidableEq, Repr

/-- The seven fields of a good signalling word (03, section 3.4). -/
structure SigWord where
  mode : CarrierMode
  guardFraction : Guard
  constellation : Constellation
  rate : CodeRate
  cellId : BitVec 16
  frameIndex : BitVec 2
  announced : Bool
  deriving DecidableEq, Repr

/-- The word result of one signalling frame (R41). A frame that was already in progress when the slot entered SIGNAL
yields no result there: `uncounted` (log entry 12). -/
inductive WordResult where
  | good (w : SigWord)
  | bad
  | uncounted
  deriving DecidableEq, Repr

/-- One arrival that a measurement resolves: its position on the slot's sample axis and its received power in a linear
unit of the measurement (R64, R68; log entries 8 and 15). -/
structure Arrival where
  position : Int
  power : Nat
  deriving DecidableEq, Repr

/-- What is taken first at a frame end: in TRACK the rebuild or the frame's word result (R82); `exitFirst` is a frame end
at the moment of an exit from TRACK that was taken before it, so that the frame is rebuilt by nothing and yields no MER
estimate (R82, R94; log entry 11). -/
inductive FrameOrder where
  | rebuildFirst
  | wordFirst
  | exitFirst
  deriving DecidableEq, Repr

/-- The outer decoder's own report on a packet, before the sync byte is examined (R84). -/
inductive DecoderReport where
  | clean
  | corrected (k : Nat)
  | uncorrectable
  deriving DecidableEq, Repr

/-- The parameters of SLOT_SET as the request carries them: the mask, the field-present set and the sixteen values in
the order of R17 (R169, 10.5). -/
structure SlotSetParams where
  mask : Byte
  present : BitVec 16
  input : Byte
  frequency : BitVec 24
  bandwidth : Byte
  mode : Byte
  guardFraction : Byte
  constellation : Byte
  rate : Byte
  cellPresent : Byte
  cellId : BitVec 16
  threshold : Byte
  dwell : Byte
  pilotLimit : Byte
  candidateLimit : Byte
  captureThreshold : Byte
  holdMs : BitVec 16
  burstLimit : Byte
  policy : Byte
  deriving DecidableEq, Repr

/-- One entry description of ROUTE_ADD as carried (R101; an absent output PID is 0xFFFF, R169). -/
structure RouteDesc where
  replace : Byte
  slot : Byte
  pid : BitVec 16
  egressSet : Byte
  outA : BitVec 16
  outB : BitVec 16
  cls : Byte
  correct : Byte
  renumber : Byte
  deriving DecidableEq, Repr

/-- One key of ROUTE_REMOVE as carried (R106). -/
structure RouteKey where
  slot : Byte
  pid : BitVec 16
  deriving DecidableEq, Repr

/-- The parameters of EGRESS_SET as carried (R138, 10.5). -/
structure EgressSetParams where
  egress : Byte
  present : Byte
  rate : BitVec 32
  policy : Byte
  reserve : BitVec 16
  ageLimit : BitVec 16
  offset : BitVec 24
  deriving DecidableEq, Repr

/-- A request as the Agent reads it from a payload: its code and its parameters in the widths of R169
(10.5, Index of Requests). `unknown` is every code that R170 does not list. -/
inductive Request where
  | describe
  | reset
  | status (clear : BitVec 48)
  | alertConfig (enable : BitVec 48) (alertA alertB : Byte)
  | statsSnapshot (clear : Byte)
  | statsRead (page : Byte)
  | frontRead
  | auxSet (mode0 mode1 protection : Byte)
  | auxWrite (mask value0 value1 : Byte)
  | auxRead
  | slotSet (p : SlotSetParams)
  | slotControl (mask action : Byte)
  | slotRead (slot page : Byte)
  | routeAdd (count : Byte) (d0 d1 d2 : RouteDesc)
  | routeRemove (count : Byte) (keys : Vector RouteKey 8)
  | routeClear
  | routeRead (start : Byte)
  | bankAssign (bank owner : Byte)
  | bankRead
  | egressSet (p : EgressSetParams)
  | egressControl (egress action : Byte)
  | egressRead (egress page : Byte) (pid : BitVec 16)
  | captureStart (context slot : Byte) (pid : BitVec 16) (mode n : Byte)
  | captureCancel (context : Byte)
  | unknown (code : Byte)
  deriving DecidableEq, Repr

/-- The commands, in the order of spec/opcode_table.json. A request row carries the link of arrival, the tag and the
parameters in the widths of R169 (log entry 7); the other rows carry the slot, input, link or egress they act on and the
measured values that come with them (log entry 8). -/
inductive Instr where
  | powerOnReset
  | resetRelease (strap : RefSource)
  | pllLock
  | gainEvaluation (input : RfId) (belowFs : Nat)
  | clipIntervalEnd (input : RfId)
  | overload (input : RfId)
  | overloadHoldExpiry (input : RfId)
  | frontRead (link : Side) (tag : Byte)
  | auxSet (link : Side) (tag : Byte) (mode0 mode1 protection : Byte)
  | auxWrite (link : Side) (tag : Byte) (mask value0 value1 : Byte)
  | auxRead (link : Side) (tag : Byte)
  | aux1LevelChange (aux1 aux0 : LineDrive)
  | mastProtectionTrip
  | slotSet (link : Side) (tag : Byte) (p : SlotSetParams)
  | enable (link : Side) (tag : Byte) (mask : Byte)
  | disable (link : Side) (tag : Byte) (mask : Byte)
  | retune (link : Side) (tag : Byte) (mask : Byte)
  | slotRead (link : Side) (tag : Byte) (slot page : Byte)
  | senseMeasurementEnd (slot : SlotId) (belowFs : Nat)
  | senseWaitEnd (slot : SlotId)
  | syncStructureFound (slot : SlotId) (mode : CarrierMode) (guardFraction : Guard) (offsetMilliHz : Int)
  | syncTimeout (slot : SlotId)
  | signallingFrameEnd (slot : SlotId) (result : WordResult) (offsetMilliHz : Int) (arrivals : List Arrival) (pointPower errorPower : Nat) (order : FrameOrder)
  | signalTimeout (slot : SlotId)
  | windowMoveApplied (slot : SlotId)
  | echoTableBuild (slot : SlotId) (arrivals : List Arrival)
  | settleHalfEnd (slot : SlotId)
  | countHalfSymbolEnd (slot : SlotId) (pilotErrors : Nat) (begunBeforeTrial : Bool)
  | countHalfEnd (slot : SlotId)
  | packetCompletion (slot : SlotId) (report : DecoderReport) (packet : Packet) (firstContext : CtxId)
  | fecTimeout (slot : SlotId)
  | holdExpiry (slot : SlotId)
  | backoffEnd (slot : SlotId)
  | routeAdd (link : Side) (tag : Byte) (count : Byte) (d0 d1 d2 : RouteDesc)
  | routeRemove (link : Side) (tag : Byte) (count : Byte) (keys : Vector RouteKey 8)
  | routeClear (link : Side) (tag : Byte)
  | routeRead (link : Side) (tag : Byte) (start : Byte)
  | bankAssign (link : Side) (tag : Byte) (bank owner : Byte)
  | bankRead (link : Side) (tag : Byte)
  | egressSet (link : Side) (tag : Byte) (p : EgressSetParams)
  | start (link : Side) (tag : Byte) (egress : Byte)
  | stop (link : Side) (tag : Byte) (egress : Byte)
  | egressRead (link : Side) (tag : Byte) (egress page : Byte) (pid : BitVec 16)
  | dueSlot (egress : Side)
  | cellPosition (link : Side)
  | huntWindow (link : Side) (header : BitVec 32)
  | presyncHeader (link : Side) (header : BitVec 32)
  | syncCell (link : Side) (cell : CellBytes)
  | lossOfSignal (link : Side)
  | lossFailureCount (link : Side)
  | signalReturn (link : Side)
  | serviceIntervalEnd
  | unknownRequest (link : Side) (tag : Byte) (code : Byte)
  | describe (link : Side) (tag : Byte)
  | reset (link : Side) (tag : Byte)
  | status (link : Side) (tag : Byte) (clear : BitVec 48)
  | alertConfig (link : Side) (tag : Byte) (enable : BitVec 48) (alertA alertB : Byte)
  | statsSnapshot (link : Side) (tag : Byte) (clear : Byte)
  | statsRead (link : Side) (tag : Byte) (page : Byte)
  | captureStart (link : Side) (tag : Byte) (context slot : Byte) (pid : BitVec 16) (mode n : Byte)
  | captureCancel (link : Side) (tag : Byte) (context : Byte)
  | stcTick
  | clippedSample (input : RfId)
  deriving DecidableEq, Repr

end Sys2Proof
end

