-- ==== Sys2Proof/WellFormed.lean ====
section
/-! DEFINITION. What a command's operands must satisfy to stand for something the part can meet. Most limits are in the
operand types; the checks here are the rest. No meaning reads them: exec is defined on every term. -/

namespace Sys2Proof

/-- The request codes that R170 lists. -/
def knownCodes : List Byte :=
  [0x01, 0x02, 0x03, 0x04, 0x05, 0x06, 0x10, 0x11, 0x12, 0x13, 0x20, 0x21, 0x22, 0x30, 0x31, 0x32, 0x33, 0x40, 0x41,
   0x50, 0x51, 0x52, 0x60, 0x61]

/-- A corrected packet had 1 to 10 bytes repaired (R84). -/
def DecoderReport.wellFormed : DecoderReport → Bool
  | .clean => true
  | .corrected k => decide (1 ≤ k ∧ k ≤ 10)
  | .uncorrectable => true

/-- A structure is found only with the received carrier within 250 kHz of the centre (R39). -/
def offsetInPullIn (milliHz : Int) : Bool :=
  decide (-250000000 ≤ milliHz ∧ milliHz ≤ 250000000)

/-- A resolved arrival has received power (R64). -/
def arrivalsResolved (arrivals : List Arrival) : Bool :=
  arrivals.all fun a => decide (0 < a.power)

/-- No data carrier's mean nearest-point power is 0: no constellation has a point of power 0 (R94). -/
def pointPowerPositive (p : Nat) : Bool :=
  decide (0 < p)

/-- The checks of a command's operands. -/
def Instr.wellFormed : Instr → Bool
  | .syncStructureFound _ _ _ offset => offsetInPullIn offset
  | .signallingFrameEnd _ _ _ arrivals p _ _ => arrivalsResolved arrivals && pointPowerPositive p
  | .echoTableBuild _ arrivals => arrivalsResolved arrivals
  | .packetCompletion _ report _ _ => report.wellFormed
  | .unknownRequest _ _ code => !knownCodes.contains code
  | .powerOnReset => true
  | .resetRelease _ => true
  | .pllLock => true
  | .gainEvaluation _ _ => true
  | .clipIntervalEnd _ => true
  | .overload _ => true
  | .overloadHoldExpiry _ => true
  | .frontRead _ _ => true
  | .auxSet _ _ _ _ _ => true
  | .auxWrite _ _ _ _ _ => true
  | .auxRead _ _ => true
  | .aux1LevelChange _ _ => true
  | .mastProtectionTrip => true
  | .slotSet _ _ _ => true
  | .enable _ _ _ => true
  | .disable _ _ _ => true
  | .retune _ _ _ => true
  | .slotRead _ _ _ _ => true
  | .senseMeasurementEnd _ _ => true
  | .senseWaitEnd _ => true
  | .syncTimeout _ => true
  | .signalTimeout _ => true
  | .windowMoveApplied _ => true
  | .settleHalfEnd _ => true
  | .countHalfSymbolEnd _ _ _ => true
  | .countHalfEnd _ => true
  | .fecTimeout _ => true
  | .holdExpiry _ => true
  | .backoffEnd _ => true
  | .routeAdd _ _ _ _ _ _ => true
  | .routeRemove _ _ _ _ => true
  | .routeClear _ _ => true
  | .routeRead _ _ _ => true
  | .bankAssign _ _ _ _ => true
  | .bankRead _ _ => true
  | .egressSet _ _ _ => true
  | .start _ _ _ => true
  | .stop _ _ _ => true
  | .egressRead _ _ _ _ _ => true
  | .dueSlot _ => true
  | .cellPosition _ => true
  | .huntWindow _ _ => true
  | .presyncHeader _ _ => true
  | .syncCell _ _ => true
  | .lossOfSignal _ => true
  | .lossFailureCount _ => true
  | .signalReturn _ => true
  | .serviceIntervalEnd => true
  | .describe _ _ => true
  | .reset _ _ => true
  | .status _ _ _ => true
  | .alertConfig _ _ _ _ _ => true
  | .statsSnapshot _ _ _ => true
  | .statsRead _ _ _ => true
  | .captureStart _ _ _ _ _ _ _ => true
  | .captureCancel _ _ _ => true
  | .stcTick => true
  | .clippedSample _ => true

end Sys2Proof
end

