-- ==== Sys2Proof/Decode.lean ====
section
/-! DEFINITION. The request payload read as a request (R169, R170, R182) and a request written as a payload, from the
same tables; and the decoder of table words, of which spec/opcode_table.json gives none. -/

namespace Sys2Proof

/-- spec/opcode_table.json gives no row any bits, so no word spells a command (log entry 29). -/
def decodeTableWord (_nbits _w : Nat) : Option Instr := none

/-! ## Reading numbers from a payload, most significant byte first (00_scope.md 4.6) -/

/-- The byte at a position; a byte beyond the end reads as 0 (R169: unused bytes are 0). -/
def byteAt (p : List Byte) (i : Nat) : Byte := p.getD i 0

def num16 (p : List Byte) (i : Nat) : BitVec 16 := byteAt p i ++ byteAt p (i + 1)

def num24 (p : List Byte) (i : Nat) : BitVec 24 := byteAt p i ++ num16 p (i + 1)

def num32 (p : List Byte) (i : Nat) : BitVec 32 := num16 p i ++ num16 p (i + 2)

def num48 (p : List Byte) (i : Nat) : BitVec 48 := num24 p i ++ num24 p (i + 3)

/-! ## Writing numbers, most significant byte first -/

def bytes16 (x : BitVec 16) : List Byte := [x.extractLsb' 8 8, x.extractLsb' 0 8]

def bytes24 (x : BitVec 24) : List Byte := [x.extractLsb' 16 8, x.extractLsb' 8 8, x.extractLsb' 0 8]

def bytes32 (x : BitVec 32) : List Byte :=
  [x.extractLsb' 24 8, x.extractLsb' 16 8, x.extractLsb' 8 8, x.extractLsb' 0 8]

def bytes48 (x : BitVec 48) : List Byte :=
  [x.extractLsb' 40 8, x.extractLsb' 32 8, x.extractLsb' 24 8, x.extractLsb' 16 8, x.extractLsb' 8 8,
   x.extractLsb' 0 8]

/-! ## Parameter lists (10.5, in the widths of R169) -/

/-- The sixteen values of SLOT_SET stand in the order of R17 after the mask and the 2-byte present set. -/
def slotSetOf (p : List Byte) : SlotSetParams where
  mask := byteAt p 2
  present := num16 p 3
  input := byteAt p 5
  frequency := num24 p 6
  bandwidth := byteAt p 9
  mode := byteAt p 10
  guardFraction := byteAt p 11
  constellation := byteAt p 12
  rate := byteAt p 13
  cellPresent := byteAt p 14
  cellId := num16 p 15
  threshold := byteAt p 17
  dwell := byteAt p 18
  pilotLimit := byteAt p 19
  candidateLimit := byteAt p 20
  captureThreshold := byteAt p 21
  holdMs := num16 p 22
  burstLimit := byteAt p 24
  policy := byteAt p 25

def slotSetBytes (p : SlotSetParams) : List Byte :=
  [p.mask] ++ bytes16 p.present ++ [p.input] ++ bytes24 p.frequency ++
    [p.bandwidth, p.mode, p.guardFraction, p.constellation, p.rate, p.cellPresent] ++ bytes16 p.cellId ++
    [p.threshold, p.dwell, p.pilotLimit, p.candidateLimit, p.captureThreshold] ++ bytes16 p.holdMs ++
    [p.burstLimit, p.policy]

/-- An entry description of ROUTE_ADD is 12 bytes (R101). -/
def routeDescOf (p : List Byte) (i : Nat) : RouteDesc where
  replace := byteAt p i
  slot := byteAt p (i + 1)
  pid := num16 p (i + 2)
  egressSet := byteAt p (i + 4)
  outA := num16 p (i + 5)
  outB := num16 p (i + 7)
  cls := byteAt p (i + 9)
  correct := byteAt p (i + 10)
  renumber := byteAt p (i + 11)

def routeDescBytes (d : RouteDesc) : List Byte :=
  [d.replace, d.slot] ++ bytes16 d.pid ++ [d.egressSet] ++ bytes16 d.outA ++ bytes16 d.outB ++
    [d.cls, d.correct, d.renumber]

/-- A key of ROUTE_REMOVE is 3 bytes (R106). -/
def routeKeyOf (p : List Byte) (i : Nat) : RouteKey where
  slot := byteAt p i
  pid := num16 p (i + 1)

def routeKeyBytes (k : RouteKey) : List Byte := [k.slot] ++ bytes16 k.pid

def routeKeysOf (p : List Byte) : Vector RouteKey 8 :=
  #v[routeKeyOf p 3, routeKeyOf p 6, routeKeyOf p 9, routeKeyOf p 12, routeKeyOf p 15, routeKeyOf p 18,
     routeKeyOf p 21, routeKeyOf p 24]

def routeKeysBytes (ks : Vector RouteKey 8) : List Byte :=
  routeKeyBytes ks[0] ++ routeKeyBytes ks[1] ++ routeKeyBytes ks[2] ++ routeKeyBytes ks[3] ++
    routeKeyBytes ks[4] ++ routeKeyBytes ks[5] ++ routeKeyBytes ks[6] ++ routeKeyBytes ks[7]

def egressSetOf (p : List Byte) : EgressSetParams where
  egress := byteAt p 2
  present := byteAt p 3
  rate := num32 p 4
  policy := byteAt p 8
  reserve := num16 p 9
  ageLimit := num16 p 11
  offset := num24 p 13

def egressSetBytes (p : EgressSetParams) : List Byte :=
  [p.egress, p.present] ++ bytes32 p.rate ++ [p.policy] ++ bytes16 p.reserve ++ bytes16 p.ageLimit ++
    bytes24 p.offset

/-! ## The request of a payload (R182): byte 0 the code, byte 1 the tag, parameters from byte 2 -/

/-- The request that a payload carries. Total: a code that R170 does not list is `unknown`. -/
def requestOf (p : List Byte) : Request :=
  let code := byteAt p 0
  if code = 0x01 then .describe
  else if code = 0x02 then .reset
  else if code = 0x03 then .status (num48 p 2)
  else if code = 0x04 then .alertConfig (num48 p 2) (byteAt p 8) (byteAt p 9)
  else if code = 0x05 then .statsSnapshot (byteAt p 2)
  else if code = 0x06 then .statsRead (byteAt p 2)
  else if code = 0x10 then .frontRead
  else if code = 0x11 then .auxSet (byteAt p 2) (byteAt p 3) (byteAt p 4)
  else if code = 0x12 then .auxWrite (byteAt p 2) (byteAt p 3) (byteAt p 4)
  else if code = 0x13 then .auxRead
  else if code = 0x20 then .slotSet (slotSetOf p)
  else if code = 0x21 then .slotControl (byteAt p 2) (byteAt p 3)
  else if code = 0x22 then .slotRead (byteAt p 2) (byteAt p 3)
  else if code = 0x30 then .routeAdd (byteAt p 2) (routeDescOf p 3) (routeDescOf p 15) (routeDescOf p 27)
  else if code = 0x31 then .routeRemove (byteAt p 2) (routeKeysOf p)
  else if code = 0x32 then .routeClear
  else if code = 0x33 then .routeRead (byteAt p 2)
  else if code = 0x40 then .bankAssign (byteAt p 2) (byteAt p 3)
  else if code = 0x41 then .bankRead
  else if code = 0x50 then .egressSet (egressSetOf p)
  else if code = 0x51 then .egressControl (byteAt p 2) (byteAt p 3)
  else if code = 0x52 then .egressRead (byteAt p 2) (byteAt p 3) (num16 p 4)
  else if code = 0x60 then .captureStart (byteAt p 2) (byteAt p 3) (num16 p 4) (byteAt p 6) (byteAt p 7)
  else if code = 0x61 then .captureCancel (byteAt p 2)
  else .unknown code

/-- The request code of R170. -/
def requestCode : Request → Byte
  | .describe => 0x01
  | .reset => 0x02
  | .status _ => 0x03
  | .alertConfig _ _ _ => 0x04
  | .statsSnapshot _ => 0x05
  | .statsRead _ => 0x06
  | .frontRead => 0x10
  | .auxSet _ _ _ => 0x11
  | .auxWrite _ _ _ => 0x12
  | .auxRead => 0x13
  | .slotSet _ => 0x20
  | .slotControl _ _ => 0x21
  | .slotRead _ _ => 0x22
  | .routeAdd _ _ _ _ => 0x30
  | .routeRemove _ _ => 0x31
  | .routeClear => 0x32
  | .routeRead _ => 0x33
  | .bankAssign _ _ => 0x40
  | .bankRead => 0x41
  | .egressSet _ => 0x50
  | .egressControl _ _ => 0x51
  | .egressRead _ _ _ => 0x52
  | .captureStart _ _ _ _ _ => 0x60
  | .captureCancel _ => 0x61
  | .unknown code => code

/-- The parameter bytes of a request (10.5). -/
def requestParams : Request → List Byte
  | .describe => []
  | .reset => []
  | .status clear => bytes48 clear
  | .alertConfig enable a b => bytes48 enable ++ [a, b]
  | .statsSnapshot clear => [clear]
  | .statsRead page => [page]
  | .frontRead => []
  | .auxSet m0 m1 protection => [m0, m1, protection]
  | .auxWrite mask v0 v1 => [mask, v0, v1]
  | .auxRead => []
  | .slotSet p => slotSetBytes p
  | .slotControl mask action => [mask, action]
  | .slotRead slot page => [slot, page]
  | .routeAdd count d0 d1 d2 => [count] ++ routeDescBytes d0 ++ routeDescBytes d1 ++ routeDescBytes d2
  | .routeRemove count keys => [count] ++ routeKeysBytes keys
  | .routeClear => []
  | .routeRead start => [start]
  | .bankAssign bank owner => [bank, owner]
  | .bankRead => []
  | .egressSet p => egressSetBytes p
  | .egressControl egress action => [egress, action]
  | .egressRead egress page pid => [egress, page] ++ bytes16 pid
  | .captureStart context slot pid mode n => [context, slot] ++ bytes16 pid ++ [mode, n]
  | .captureCancel context => [context]
  | .unknown _ => []

/-- Bytes followed by as many zeros as make them up to n (R169, R183). -/
def padTo (n : Nat) (bs : List Byte) : List Byte := (bs ++ List.replicate n 0).take n

/-- The 60-byte payload of a request: code, tag and 58 parameter bytes (R170). -/
def requestPayload (tag : Byte) (r : Request) : List Byte :=
  padTo 60 ([requestCode r, tag] ++ requestParams r)

/-- SLOT_CONTROL's and EGRESS_CONTROL's action codes (R173). -/
abbrev actionEnable : Byte := 1
abbrev actionDisable : Byte := 2
abbrev actionRetune : Byte := 3
abbrev actionStart : Byte := 1
abbrev actionStop : Byte := 2

end Sys2Proof
end

