-- ==== Sys2Proof/Machine/State.lean ====
section
/-! DEFINITION. The state of the part as plain data, and its power-on state. -/

namespace Sys2Proof.Machine

open Sys2Proof

/-- No command of the part stops with a fault: the spec answers a bad request with a status, a failed attempt with a
reason and a bad header with a count. The type has no constructor. -/
inductive Fault where
  deriving DecidableEq, Repr

/-- Why a command has no meaning. -/
inductive Refusal where
  /-- Raised by exec's arm of a command that has no meaning yet; safe. No arm raises it now. -/
  | notModelled (mnemonic : String)
  deriving DecidableEq, Repr

/-! ## Reset and the Time Base (R1, R2) -/

/-- Where start-up stands (R1). -/
inductive PowerPhase where
  | held        -- RESET_N is low: every block is held in its power-on state
  | acquiring   -- RESET_N is high and the PLL acquires lock
  | locked      -- the PLL has locked: every timer counts
  deriving DecidableEq, Repr

/-- The Time Base: the STC, the reference and the elapsed ticks of the running periods (R1, R2, R4, R6, R159). -/
structure TimeBase where
  stc : Stamp
  reference : RefSource
  oneMs : Nat
  tenMs : Nat
  cellTicks : Nat
  deriving DecidableEq, Repr

/-! ## RF Capture Unit (R3) -/

/-- One input. `hold` is absent when no overload hold runs; `some 0` is a hold that has run out and whose expiry has not
been taken yet (R7). The three marks are moments that have come and whose command has not been taken (log entries 4, 9). -/
structure RfInput where
  gain : Nat
  hold : Option Nat
  clipNow : Nat
  clipLast : Nat
  mean : Int
  evalDue : Bool
  clipDue : Bool
  overloadDue : Bool
  deriving DecidableEq, Repr

/-! ## Auxiliary Line Unit (R10) -/

inductive LineMode where
  | input
  | openDrain
  | pushPull
  deriving DecidableEq, Repr

/-- `drive0` and `drive1` are what the board does to the pins (log entry 6); `lowRun` counts ticks (R14). -/
structure AuxUnit where
  mode0 : LineMode
  mode1 : LineMode
  latch0 : Bool
  latch1 : Bool
  protection : Bool
  lowRun : Nat
  drive0 : LineDrive
  drive1 : LineDrive
  deriving DecidableEq, Repr

/-! ## Channel slots (R16, R17, R34, R63, R71, R86, R95) -/

inductive Bandwidth where
  | mhz6
  | mhz7
  | mhz8
  deriving DecidableEq, Repr

inductive ErrorPolicy where
  | mark
  | drop
  deriving DecidableEq, Repr

/-- The sixteen tuning fields of R17; `none` is UNSET, AUTO or ABSENT. -/
structure TuningRecord where
  input : RfId
  frequency : Option Nat
  bandwidth : Bandwidth
  mode : Option CarrierMode
  guardFraction : Option Guard
  constellation : Option Constellation
  rate : Option CodeRate
  cellId : Option (BitVec 16)
  threshold : Int
  dwell : Nat
  pilotLimit : Nat
  candidateLimit : Nat
  captureThreshold : Nat
  holdMs : Nat
  burstLimit : Nat
  policy : ErrorPolicy
  deriving DecidableEq, Repr

inductive AcqState where
  | off
  | sense
  | sync
  | signal
  | window
  | fecWait
  | track
  | hold
  | backoff
  deriving DecidableEq, Repr

inductive FailureReason where
  | none
  | syncTimeout
  | signalTimeout
  | mismatch
  | windowFail
  | fecTimeout
  deriving DecidableEq, Repr

/-- The phase timer of R34: stopped, ticks remaining, or signalling frames remaining (SIGNAL). -/
inductive PhaseTimer where
  | stopped
  | ticks (left : Nat)
  | frames (left : Nat)
  deriving DecidableEq, Repr

/-- The detected mode and guard (R34). -/
structure Structure where
  mode : CarrierMode
  guardFraction : Guard
  deriving DecidableEq, Repr

/-- One path of the echo table (R63). -/
structure EchoPath where
  delay : Int
  power : Nat
  deriving DecidableEq, Repr

inductive TrialState where
  | notTried
  | settling
  | counting
  | passed
  | failed
  deriving DecidableEq, Repr

/-- One entry of the candidate list with its trial record (R71). -/
structure Candidate where
  reference : Int
  energy : Nat
  trial : TrialState
  errors : Nat
  deriving DecidableEq, Repr

/-- The eight quality counters of R95. -/
structure SlotCounters where
  delivered : Nat
  corrected : Nat
  bytesCorrected : Nat
  uncorrectable : Nat
  lockLosses : Nat
  acqFailures : Nat
  nulls : Nat
  unrouted : Nat
  deriving DecidableEq, Repr

/-- One channel slot. `senseWaiting` is the SENSE phase of R62 while the slot is in SENSE; `trialTimer` is present
while a candidate trial runs, in ticks of its current half. -/
structure Slot where
  programmed : TuningRecord
  active : Option TuningRecord
  acq : AcqState
  attempts : Nat
  backoff : Nat
  lastFailure : FailureReason
  sigRecord : Option SigWord
  detected : Option Structure
  phase : PhaseTimer
  noSignal : Bool
  senseWaiting : Bool
  framePos : BitVec 2
  halfMade : Option SigWord
  changePending : Bool
  echo : List EchoPath
  total : Nat
  timingRef : Option Int
  mainShift : Int
  window : Option Int
  movePending : Bool
  candidates : List Candidate
  trialTimer : Option Nat
  channelPower : Option Int
  freqOffset : Option Int
  mer : Option Nat
  syncRun : Nat
  uncRun : Nat
  wrongRun : Nat
  goodRun : Nat
  counters : SlotCounters
  deriving DecidableEq, Repr

/-! ## Packet Router (R97) -/

inductive PacketClass where
  | ordinary
  | essential
  deriving DecidableEq, Repr

/-- One entry of the Route Table (R97). -/
structure RouteEntry where
  valid : Bool
  slot : SlotId
  pid : Pid
  toA : Bool
  toB : Bool
  outA : Option Pid
  outB : Option Pid
  cls : PacketClass
  correct : Bool
  renumber : Bool
  hits : Nat
  drops : Nat
  deriving DecidableEq, Repr

/-! ## Packet Memory (R117, R118) -/

inductive Owner where
  | none
  | egressA
  | egressB
  | capture
  deriving DecidableEq, Repr

/-- ACTIVE, or DRAINING toward the pending owner (R118: a pending owner is present while DRAINING alone). -/
inductive BankState where
  | active
  | draining (pendingOwner : Owner)
  deriving DecidableEq, Repr

structure Bank where
  owner : Owner
  state : BankState
  deriving DecidableEq, Repr

/-- The identity of a buffer: its bank and its index within the bank, 0 to 127 (R117). -/
structure BufferId where
  bank : Fin 8
  index : Nat
  deriving DecidableEq, Repr

/-- A held buffer of a sub-queue: the packet and the buffer record of R113. -/
structure Buffer where
  id : BufferId
  slot : SlotId
  arrival : Stamp
  cls : PacketClass
  correct : Bool
  renumber : Bool
  packet : Packet
  deriving DecidableEq, Repr

/-! ## Egress Units (R136) -/

inductive EgressState where
  | stopped
  | running
  | stopping
  deriving DecidableEq, Repr

inductive SchedPolicy where
  | rotating
  | fixed
  deriving DecidableEq, Repr

/-- A complete stream cell: its 60 bytes, its start offset and its END mark (R152). -/
structure StreamCell where
  payload : List Byte
  startOffset : Byte
  isEnd : Bool
  deriving DecidableEq, Repr

/-- The cell assembly record (R136). The fill is the number of bytes; 60 bytes with the END mark are a complete END cell
that waits for room (R141). -/
structure Assembly where
  bytes : List Byte
  startOffset : Byte
  isEnd : Bool
  deriving DecidableEq, Repr

structure EgressCounters where
  sent : Nat
  nulls : Nat
  ordinaryDrops : Nat
  essentialDrops : Nat
  stale : Nat
  stoppedDiscards : Nat
  corrections : Nat
  deriving DecidableEq, Repr

/-- One egress. `dueStamps` are the departure stamps of due slots that have fallen and whose command has not been taken
(log entry 9); `continuity` lists the Continuity Table's entries that are not 0 (log entry 18). -/
structure Egress where
  rate : Nat
  policy : SchedPolicy
  reserve : Nat
  ageLimit : Nat
  offset : Int
  run : EgressState
  acc : Nat
  dueStamps : List Stamp
  pointer : SlotId
  continuity : List (Nat × BitVec 4)
  assembly : Assembly
  txBuffer : List StreamCell
  counters : EgressCounters
  queues : Vector (List Buffer) 6
  deriving DecidableEq, Repr

/-! ## Link Units (R160, R165, R166) -/

inductive Delineation where
  | hunt
  | presync
  | sync
  deriving DecidableEq, Repr

structure LinkCounters where
  headerErrors : Nat
  unknownCells : Nat
  requestDiscards : Nat
  deriving DecidableEq, Repr

/-- One link. `line` is the cell on the downstream line in the current position, empty while the part sends nothing
(log entry 21); `lossTicks` are the ticks of the running 64-tick interval of a loss of signal in SYNC and `lossDue` the
full intervals not yet counted (R162). -/
structure LinkUnit where
  delin : Delineation
  boundary : Bool
  goodRun : Nat
  badRun : Nat
  signal : Bool
  lossTicks : Nat
  lossDue : Nat
  counters : LinkCounters
  capturePointer : CtxId
  seq : Byte
  positionDue : Bool
  line : List Byte
  deriving DecidableEq, Repr

/-! ## Management Agent (R176) -/

/-- The status codes of replies (00_scope.md 4.8). -/
inductive Status where
  | ok
  | busy
  | badArg
  | badState
  | conflict
  | full
  | notFound
  | unknown
  deriving DecidableEq, Repr

/-- A reply as the Agent makes it (R183). -/
structure Reply where
  code : Byte
  tag : Byte
  status : Status
  summary : Byte
  data : List Byte
  deriving DecidableEq, Repr

/-- `interval` is absent when IDLE; `some 0` is an interval that has run out and whose end has not been taken. -/
structure Agent where
  requestsA : List (List Byte)
  requestsB : List (List Byte)
  repliesA : List Reply
  repliesB : List Reply
  lastServed : Side
  interval : Option Nat
  deriving DecidableEq, Repr

/-! ## Capture Unit (R187) -/

inductive CaptureState where
  | idle
  | active
  | suspended
  | draining
  deriving DecidableEq, Repr

inductive CaptureMode where
  | count
  | sectionMode
  | continuous
  deriving DecidableEq, Repr

inductive SectionPhase where
  | waiting
  | opened
  deriving DecidableEq, Repr

/-- The reasons of R171. -/
inductive EndReason where
  | countDone
  | sectionDone
  | gap
  | cancelled
  | slotLeftTrack
  | roundEnd
  deriving DecidableEq, Repr

/-- One item of a pending list: a captured packet in its held buffer, or a record that holds no buffer (R191, R192). -/
inductive PendingItem where
  | packet (id : BufferId) (index : Nat) (bytes : Packet)
  | roundEnd (captured missed round : Nat)
  | endRecord (reason : EndReason) (captured missed round : Nat) (truncated : Bool)
  deriving DecidableEq, Repr

structure CaptureContext where
  state : CaptureState
  slot : SlotId
  pid : Pid
  mode : CaptureMode
  count : Nat
  link : Side
  pending : List PendingItem
  headFragment : Nat
  captured : Nat
  missed : Nat
  nextIndex : Nat
  round : Nat
  phase : SectionPhase
  lastCc : Option (BitVec 4)
  truncated : Bool
  endReason : Option EndReason
  deriving DecidableEq, Repr

/-! ## Event and Statistics Unit (R194, R198) -/

/-- Flag k of R172 is bit k of `latched` and of `enabled`. -/
structure EventUnit where
  latched : BitVec 45
  enabled : BitVec 45
  alertA : Bool
  alertB : Bool
  pendingA : Bool
  pendingB : Bool
  deriving DecidableEq, Repr

/-- The snapshot bank: the 68 counters in the numbering of R198. -/
structure Snapshot where
  bank : List Nat
  valid : Bool
  deriving DecidableEq, Repr

/-! ## The state -/

/-- Everything the spec gives the part, the count of free values used (log entry 22), and the queue of commands that
wait, first in first out. -/
structure State where
  power : PowerPhase
  time : TimeBase
  rf0 : RfInput
  rf1 : RfInput
  aux : AuxUnit
  slots : Vector Slot 6
  routes : List (Nat × RouteEntry)
  banks : Vector Bank 8
  egressA : Egress
  egressB : Egress
  linkA : LinkUnit
  linkB : LinkUnit
  agent : Agent
  capture0 : CaptureContext
  capture1 : CaptureContext
  events : EventUnit
  snapshot : Snapshot
  freeCount : Nat
  pending : List Instr
  deriving DecidableEq, Repr

/-! ## Power-on values -/

/-- The STC's value while it is stopped and the reference before REF_SEL is sampled are DESIGN CHOICE (log entry 5). -/
def TimeBase.initial : TimeBase where
  stc := 0
  reference := .crystal
  oneMs := 0
  tenMs := 0
  cellTicks := 0

/-- The power-on column of R3. -/
def RfInput.initial : RfInput where
  gain := 20
  hold := none
  clipNow := 0
  clipLast := 0
  mean := -800
  evalDue := false
  clipDue := false
  overloadDue := false

/-- The power-on table of R10; the board's drives are DESIGN CHOICE (log entry 6). -/
def AuxUnit.initial : AuxUnit where
  mode0 := .input
  mode1 := .input
  latch0 := true
  latch1 := true
  protection := false
  lowRun := 0
  drive0 := .floating
  drive1 := .floating

/-- The power-on column of R17. -/
def TuningRecord.initial : TuningRecord where
  input := .rf0
  frequency := none
  bandwidth := .mhz8
  mode := none
  guardFraction := none
  constellation := none
  rate := none
  cellId := none
  threshold := -45
  dwell := 8
  pilotLimit := 12
  candidateLimit := 2
  captureThreshold := 16
  holdMs := 500
  burstLimit := 32
  policy := .mark

def SlotCounters.zero : SlotCounters where
  delivered := 0
  corrected := 0
  bytesCorrected := 0
  uncorrectable := 0
  lockLosses := 0
  acqFailures := 0
  nulls := 0
  unrouted := 0

/-- R32 and the power-on column of R34; the timing reference is DESIGN CHOICE (log entry 15). -/
def Slot.initial : Slot where
  programmed := TuningRecord.initial
  active := none
  acq := .off
  attempts := 0
  backoff := 1
  lastFailure := .none
  sigRecord := none
  detected := none
  phase := .stopped
  noSignal := false
  senseWaiting := false
  framePos := 0
  halfMade := none
  changePending := false
  echo := []
  total := 0
  timingRef := none
  mainShift := 0
  window := none
  movePending := false
  candidates := []
  trialTimer := none
  channelPower := none
  freqOffset := none
  mer := none
  syncRun := 0
  uncRun := 0
  wrongRun := 0
  goodRun := 0
  counters := SlotCounters.zero

/-- The power-on column of R97: what an unlisted index of the Route Table reads as. -/
def RouteEntry.initial : RouteEntry where
  valid := false
  slot := 0
  pid := 0
  toA := false
  toB := false
  outA := none
  outB := none
  cls := .ordinary
  correct := false
  renumber := false
  hits := 0
  drops := 0

/-- The power-on Bank Map of R118. -/
def initialBanks : Vector Bank 8 :=
  #v[⟨.egressA, .active⟩, ⟨.egressA, .active⟩, ⟨.egressA, .active⟩, ⟨.egressA, .active⟩,
     ⟨.egressB, .active⟩, ⟨.egressB, .active⟩, ⟨.egressB, .active⟩, ⟨.capture, .active⟩]

def Assembly.empty : Assembly where
  bytes := []
  startOffset := Config.noStart
  isEnd := false

def EgressCounters.zero : EgressCounters where
  sent := 0
  nulls := 0
  ordinaryDrops := 0
  essentialDrops := 0
  stale := 0
  stoppedDiscards := 0
  corrections := 0

/-- The power-on columns of R136 and R137. -/
def Egress.initial : Egress where
  rate := 0
  policy := .rotating
  reserve := 64
  ageLimit := 100
  offset := 0
  run := .stopped
  acc := 0
  dueStamps := []
  pointer := 5
  continuity := []
  assembly := Assembly.empty
  txBuffer := []
  counters := EgressCounters.zero
  queues := Vector.replicate 6 []

def LinkCounters.zero : LinkCounters where
  headerErrors := 0
  unknownCells := 0
  requestDiscards := 0

/-- The power-on values of R160, R165 and R166; the received signal is DESIGN CHOICE (log entry 6). -/
def LinkUnit.initial : LinkUnit where
  delin := .hunt
  boundary := false
  goodRun := 0
  badRun := 0
  signal := true
  lossTicks := 0
  lossDue := 0
  counters := LinkCounters.zero
  capturePointer := .c1
  seq := 0
  positionDue := false
  line := []

/-- The power-on column of R176. -/
def Agent.initial : Agent where
  requestsA := []
  requestsB := []
  repliesA := []
  repliesB := []
  lastServed := .b
  interval := none

/-- The power-on column of R187. -/
def CaptureContext.initial : CaptureContext where
  state := .idle
  slot := 0
  pid := 0
  mode := .count
  count := 1
  link := .a
  pending := []
  headFragment := 0
  captured := 0
  missed := 0
  nextIndex := 0
  round := 0
  phase := .waiting
  lastCc := none
  truncated := false
  endReason := none

/-- The power-on column of R194. -/
def EventUnit.initial : EventUnit where
  latched := 0
  enabled := 0
  alertA := false
  alertB := false
  pendingA := false
  pendingB := false

/-- R198: a power-on reset zeros the bank and clears the valid flag. -/
def Snapshot.initial : Snapshot where
  bank := List.replicate 68 0
  valid := false

/-- The part while RESET_N is held low: every block in its power-on state (R1), no command waiting (log entries 5, 30). -/
def State.reset : State where
  power := .held
  time := TimeBase.initial
  rf0 := RfInput.initial
  rf1 := RfInput.initial
  aux := AuxUnit.initial
  slots := Vector.replicate 6 Slot.initial
  routes := []
  banks := initialBanks
  egressA := Egress.initial
  egressB := Egress.initial
  linkA := LinkUnit.initial
  linkB := LinkUnit.initial
  agent := Agent.initial
  capture0 := CaptureContext.initial
  capture1 := CaptureContext.initial
  events := EventUnit.initial
  snapshot := Snapshot.initial
  freeCount := 0
  pending := []

end Sys2Proof.Machine
end

