-- ==== Sys2Proof/Machine/Operands.lean ====
section
/-! DEFINITION. Operand forms: the fields of a transport packet (R175), the data items of replies (R169) and the codes
of enumerated values in both directions (R173). -/

namespace Sys2Proof.Machine

open Sys2Proof

/-! ## Fields of a transport packet (R175) -/

/-- The correct first byte of a packet (R84). -/
abbrev syncByte : Byte := 0x47

def packetSyncRight (p : Packet) : Bool := p[0] == syncByte

def packetError (p : Packet) : Bool := p[1].getLsbD 7

def packetUnitStart (p : Packet) : Bool := p[1].getLsbD 6

def packetPid (p : Packet) : Pid := p[1].extractLsb' 0 5 ++ p[2]

/-- Adaptation field control, bits 5–4 of byte 3. -/
def packetAfc (p : Packet) : BitVec 2 := p[3].extractLsb' 4 2

def packetCc (p : Packet) : BitVec 4 := p[3].extractLsb' 0 4

/-- A packet is payload-carrying when its adaptation field control is 1 or 3 (R149, R190): bit 0 of that field. -/
def packetHasPayload (p : Packet) : Bool := (packetAfc p).getLsbD 0

/-- The last three conditions of R150: what it means for a packet to carry a clock reference. -/
def packetHasClockRef (p : Packet) : Bool :=
  (packetAfc p).getLsbD 1 && decide (7 ≤ p[4].toNat) && p[5].getLsbD 4

/-- Bytes 6–11 as one number: base in bits 47–15, six bits between, extension in bits 8–0. -/
def packetClockBits (p : Packet) : BitVec 48 := p[6] ++ p[7] ++ p[8] ++ p[9] ++ p[10] ++ p[11]

def packetClockBase (p : Packet) : BitVec 33 := (packetClockBits p).extractLsb' 15 33

def packetClockExt (p : Packet) : BitVec 9 := (packetClockBits p).extractLsb' 0 9

/-- MARK: the error indicator set and no other bit changed (R88). -/
def packetMark (p : Packet) : Packet := p.set 1 (p[1] ||| 0x80)

/-- The PID replaced; every other bit unchanged (R113). -/
def packetSetPid (p : Packet) (pid : Pid) : Packet :=
  (p.set 1 (p[1].extractLsb' 5 3 ++ pid.extractLsb' 8 5)).set 2 (pid.extractLsb' 0 8)

/-- The continuity counter replaced; every other bit unchanged (R149). -/
def packetSetCc (p : Packet) (cc : BitVec 4) : Packet := p.set 3 (p[3].extractLsb' 4 4 ++ cc)

/-- Base and extension replaced; the six bits between them and every other byte unchanged (R151, R175). -/
def packetSetClock (p : Packet) (base : BitVec 33) (ext : BitVec 9) : Packet :=
  let bits : BitVec 48 := base ++ (packetClockBits p).extractLsb' 9 6 ++ ext
  ((((((p.set 6 (bits.extractLsb' 40 8)).set 7 (bits.extractLsb' 32 8)).set 8 (bits.extractLsb' 24 8)).set 9
    (bits.extractLsb' 16 8)).set 10 (bits.extractLsb' 8 8)).set 11 (bits.extractLsb' 0 8))

/-- The null packet an egress makes (R148): payload only, PID 8191, continuity counter 0, 184 bytes of 0xFF. -/
def nullPacket : Packet :=
  ((((Vector.replicate 188 (0xFF : Byte)).set 0 syncByte).set 1 0x1F).set 2 0xFF).set 3 0x10

/-- The 13-bit PID of null packets (00_scope.md 4.4). -/
abbrev nullPid : Pid := 8191

/-! ## Data items, most significant byte first (R169) -/

/-- A number in k bytes. -/
def beBytes : Nat → Nat → List Byte
  | 0, _ => []
  | k + 1, n => BitVec.ofNat 8 (n / 256 ^ k) :: beBytes k n

/-- A signed number in k bytes, two's complement. -/
def beSigned (k : Nat) (z : Int) : List Byte := beBytes k (z % (256 ^ k : Nat)).toNat

/-- A flag in one byte. -/
def flagByte (b : Bool) : List Byte := [if b then 1 else 0]

/-- An item that may be absent: a present flag, then the value or 0 (R169). -/
def optBytes {α : Type} (k : Nat) (f : α → List Byte) : Option α → List Byte
  | none => 0 :: List.replicate k 0
  | some a => 1 :: f a

/-- Fields listed from the most significant bit, each with its width, run together without padding (R174). -/
def packBits (fields : List (Nat × Nat)) : Nat :=
  fields.foldl (fun acc f => acc * 2 ^ f.1 + f.2 % 2 ^ f.1) 0

/-- A signed value as the bits of a packed field of width w. -/
def signedBits (w : Nat) (z : Int) : Nat := (z % (2 ^ w : Nat)).toNat

/-! ## Codes of enumerated values (R170, R173), written -/

def statusCode : Status → Byte
  | .ok => 0
  | .busy => 1
  | .badArg => 2
  | .badState => 3
  | .conflict => 4
  | .full => 5
  | .notFound => 6
  | .unknown => 7

def sideCode : Side → Byte
  | .a => 0
  | .b => 1

def refCode : RefSource → Byte
  | .crystal => 0
  | .external => 1

def lineModeCode : LineMode → Byte
  | .input => 0
  | .openDrain => 1
  | .pushPull => 2

def rfCode : RfId → Byte
  | .rf0 => 0
  | .rf1 => 1

def bandwidthCode : Bandwidth → Byte
  | .mhz6 => 6
  | .mhz7 => 7
  | .mhz8 => 8

def modeCode : CarrierMode → Byte
  | .s => 1
  | .l => 2

def guardCode : Guard → Byte
  | .g4 => 1
  | .g8 => 2
  | .g16 => 3
  | .g32 => 4

def constellationCode : Constellation → Byte
  | .qpsk => 1
  | .p16 => 2
  | .p64 => 3

def rateCode : CodeRate → Byte
  | .r12 => 1
  | .r23 => 2
  | .r34 => 3
  | .r56 => 4
  | .r78 => 5

/-- AUTO is code 0 (R173). -/
def autoCode {α : Type} (f : α → Byte) : Option α → Byte
  | none => 0
  | some a => f a

def policyCode : ErrorPolicy → Byte
  | .mark => 0
  | .drop => 1

def acqCode : AcqState → Byte
  | .off => 0
  | .sense => 1
  | .sync => 2
  | .signal => 3
  | .window => 4
  | .fecWait => 5
  | .track => 6
  | .hold => 7
  | .backoff => 8

def failureCode : FailureReason → Byte
  | .none => 0
  | .syncTimeout => 1
  | .signalTimeout => 2
  | .mismatch => 3
  | .windowFail => 4
  | .fecTimeout => 5

def trialCode : TrialState → Nat
  | .notTried => 0
  | .settling => 1
  | .counting => 2
  | .passed => 3
  | .failed => 4

def ownerCode : Owner → Nat
  | .none => 0
  | .egressA => 1
  | .egressB => 2
  | .capture => 3

def egressStateCode : EgressState → Byte
  | .stopped => 0
  | .running => 1
  | .stopping => 2

def schedCode : SchedPolicy → Byte
  | .rotating => 0
  | .fixed => 1

def captureStateCode : CaptureState → Byte
  | .idle => 0
  | .active => 1
  | .suspended => 2
  | .draining => 3

def endReasonCode : EndReason → Byte
  | .countDone => 1
  | .sectionDone => 2
  | .gap => 3
  | .cancelled => 4
  | .slotLeftTrack => 5
  | .roundEnd => 6

/-! ## Codes of enumerated values (R173), read; a code with no meaning reads as `none` -/

def sideOf (b : Byte) : Option Side :=
  if b = 0 then some .a else if b = 1 then some .b else none

def flagOf (b : Byte) : Option Bool :=
  if b = 0 then some false else if b = 1 then some true else none

def lineModeOf (b : Byte) : Option LineMode :=
  if b = 0 then some .input else if b = 1 then some .openDrain else if b = 2 then some .pushPull else none

def rfOf (b : Byte) : Option RfId :=
  if b = 0 then some .rf0 else if b = 1 then some .rf1 else none

def bandwidthOf (b : Byte) : Option Bandwidth :=
  if b = 6 then some .mhz6 else if b = 7 then some .mhz7 else if b = 8 then some .mhz8 else none

/-- AUTO reads as `some none`. -/
def modeOf (b : Byte) : Option (Option CarrierMode) :=
  if b = 0 then some none else if b = 1 then some (some .s) else if b = 2 then some (some .l) else none

def guardOf (b : Byte) : Option (Option Guard) :=
  if b = 0 then some none else if b = 1 then some (some .g4) else if b = 2 then some (some .g8)
  else if b = 3 then some (some .g16) else if b = 4 then some (some .g32) else none

def constellationOf (b : Byte) : Option (Option Constellation) :=
  if b = 0 then some none else if b = 1 then some (some .qpsk) else if b = 2 then some (some .p16)
  else if b = 3 then some (some .p64) else none

def rateOf (b : Byte) : Option (Option CodeRate) :=
  if b = 0 then some none else if b = 1 then some (some .r12) else if b = 2 then some (some .r23)
  else if b = 3 then some (some .r34) else if b = 4 then some (some .r56) else if b = 5 then some (some .r78)
  else none

def policyOf (b : Byte) : Option ErrorPolicy :=
  if b = 0 then some .mark else if b = 1 then some .drop else none

def schedOf (b : Byte) : Option SchedPolicy :=
  if b = 0 then some .rotating else if b = 1 then some .fixed else none

def classOf (b : Byte) : Option PacketClass :=
  if b = 0 then some .ordinary else if b = 1 then some .essential else none

def ownerOf (b : Byte) : Option Owner :=
  if b = 0 then some .none else if b = 1 then some .egressA else if b = 2 then some .egressB
  else if b = 3 then some .capture else none

def captureModeOf (b : Byte) : Option CaptureMode :=
  if b = 1 then some .count else if b = 2 then some .sectionMode else if b = 3 then some .continuous else none

def contextOf (b : Byte) : Option CtxId :=
  if b = 0 then some .c0 else if b = 1 then some .c1 else none

/-- A slot number 0–5. -/
def slotOf (b : Byte) : Option SlotId :=
  if h : b.toNat < 6 then some ⟨b.toNat, h⟩ else none

/-- A bank number 0–7. -/
def bankOf (b : Byte) : Option (Fin 8) :=
  if h : b.toNat < 8 then some ⟨b.toNat, h⟩ else none

/-- The six slots in ascending order. -/
def allSlots : List SlotId := [0, 1, 2, 3, 4, 5]

/-- The eight banks in ascending order. -/
def allBanks : List (Fin 8) := [0, 1, 2, 3, 4, 5, 6, 7]

/-- The slots a mask names, in ascending order (R169: bit n is slot n). -/
def maskSlots (mask : Byte) : List SlotId := allSlots.filter fun n => mask.getLsbD n.val

/-- A mask that names at least one slot and only slots 0 to 5 (R22, R26). -/
def maskOk (mask : Byte) : Bool := decide (0 < mask.toNat ∧ mask.toNat < 64)

/-- The byte of a mask with the one bit of a slot set. -/
def slotBit (n : SlotId) : Byte := 1 <<< n.val

end Sys2Proof.Machine
end

