-- ==== Sys2Proof/Machine/Flags.lean ====
section
/-! DEFINITION. The 45 event flags: their numbers, latching and clearing, the summary and the alert cells it makes
pending (R172, R194 to R197). -/

namespace Sys2Proof.Machine

open Sys2Proof

/-- The event flags by name (R172). -/
inductive EventFlag where
  | acqFailed (n : SlotId)
  | lockLost (n : SlotId)
  | mismatch (n : SlotId)
  | echoSpread (n : SlotId)
  | paramChange (n : SlotId)
  | dropping (e : Side)
  | stale (e : Side)
  | linkDown (l : Side)
  | reqDiscard (l : Side)
  | overload (i : RfId)
  | gainLimit (i : RfId)
  | mastFault
  | captureEnd (c : CtxId)
  deriving DecidableEq, Repr

/-- The flag numbers of R172. -/
def flagNumber : EventFlag → Nat
  | .acqFailed n => 5 * n.val
  | .lockLost n => 5 * n.val + 1
  | .mismatch n => 5 * n.val + 2
  | .echoSpread n => 5 * n.val + 3
  | .paramChange n => 5 * n.val + 4
  | .dropping .a => 30
  | .stale .a => 31
  | .dropping .b => 32
  | .stale .b => 33
  | .linkDown .a => 34
  | .reqDiscard .a => 35
  | .linkDown .b => 36
  | .reqDiscard .b => 37
  | .overload .rf0 => 38
  | .gainLimit .rf0 => 39
  | .overload .rf1 => 40
  | .gainLimit .rf1 => 41
  | .mastFault => 42
  | .captureEnd .c0 => 43
  | .captureEnd .c1 => 44

/-- The event set that holds one flag. -/
def flagMask (f : EventFlag) : BitVec 45 := 1 <<< flagNumber f

/-- The flags both latched and enabled (R194). -/
def reportedFlags (u : EventUnit) : BitVec 45 := u.latched &&& u.enabled

/-- The summary: the OR of all flags both latched and enabled (R194). -/
def summary (u : EventUnit) : Bool := reportedFlags u != 0

/-- Whether any flag numbered from lo, w of them, is both latched and enabled. -/
def groupOr (u : EventUnit) (lo w : Nat) : Bool := (reportedFlags u).extractLsb' lo w != 0

/-- The summary record of R172: bit 0 the summary, bits 1–5 the group ORs. -/
def summaryRecord (u : EventUnit) : Byte :=
  BitVec.ofNat 8 <|
    packBits [(1, (groupOr u 43 2).toNat), (1, (groupOr u 38 5).toNat), (1, (groupOr u 34 4).toNat),
      (1, (groupOr u 30 4).toNat), (1, (groupOr u 0 30).toNat), (1, (summary u).toNat)]

/-- R195: what a change of the summary does to the pending alert cells, given the summary before. -/
def settleAlerts (before : Bool) (u : EventUnit) : EventUnit :=
  if !before && summary u then
    { u with pendingA := u.pendingA || u.alertA, pendingB := u.pendingB || u.alertB }
  else if before && !summary u then { u with pendingA := false, pendingB := false }
  else u

/-- A flag's source event latches it (R194, R195). -/
def latchEvent (f : EventFlag) (u : EventUnit) : EventUnit :=
  settleAlerts (summary u) { u with latched := u.latched ||| flagMask f }

/-- The flags of a clear set are cleared (R197). -/
def clearEvents (clear : BitVec 45) (u : EventUnit) : EventUnit :=
  settleAlerts (summary u) { u with latched := u.latched &&& ~~~clear }

/-- ALERT_CONFIG's replacement of the enable set and both settings; a link set OFF loses its pending alert cell (R195,
R196). -/
def configureEvents (enable : BitVec 45) (alertA alertB : Bool) (u : EventUnit) : EventUnit :=
  let v := settleAlerts (summary u) { u with enabled := enable, alertA := alertA, alertB := alertB }
  { v with pendingA := v.pendingA && alertA, pendingB := v.pendingB && alertB }

/-- The 6 bytes of an event set; bits 47–45 are 0 (R172). -/
def eventBytes (set : BitVec 45) : List Byte := bytes48 (set.setWidth 48)

/-- An event set as a request carries it; bits 47–45 are ignored (R196, R197). -/
def eventSetOf (x : BitVec 48) : BitVec 45 := x.setWidth 45

end Sys2Proof.Machine
end

