-- ==== Sys2Proof/Machine/Ops.lean ====
section
/-! DEFINITION. The named operations over the state: accessors, counters, timers, the canonical tables, the pools of
Packet Memory, the ending and resuming of captures, and the waiting of every command for PLL lock. -/

namespace Sys2Proof.Machine

open Sys2Proof

/-! ## The canonical tables (Continuity Table, Route Table) -/

/-- What an address reads: its entry, or the default of an unlisted address. -/
def Memory.read {α : Type} (default : α) : List (Nat × α) → Nat → α
  | [], _ => default
  | (k, v) :: m, a => if k = a then v else Memory.read default m a

/-- An entry put in its place; writing the default removes the entry. -/
def Memory.write {α : Type} [DecidableEq α] (default : α) : List (Nat × α) → Nat → α → List (Nat × α)
  | [], a, v => if v = default then [] else [(a, v)]
  | (k, w) :: m, a, v =>
    if a < k then (if v = default then (k, w) :: m else (a, v) :: (k, w) :: m)
    else if a = k then (if v = default then m else (a, v) :: m)
    else (k, w) :: Memory.write default m a v

/-- The canonical form: addresses strictly rising and below the size, no entry equal to the default. -/
abbrev Memory.wf {α : Type} [DecidableEq α] (default : α) (size : Nat) (m : List (Nat × α)) : Prop :=
  m.Pairwise (fun p q => p.1 < q.1) ∧ (∀ p ∈ m, p.1 < size) ∧ ∀ p ∈ m, p.2 ≠ default

/-! ## Counters and timers -/

/-- A statistics counter raised by k (00_scope.md 4.5). -/
def bump (c k : Nat) : Nat := min (c + k) Config.counterMax

/-- Milliseconds in ticks (R2). -/
def ms (n : Nat) : Nat := n * Config.ticksPerMs

/-- Whole milliseconds remaining, rounded up (R9, R62). -/
def msLeft (ticks : Nat) : Nat := (ticks + (Config.ticksPerMs - 1)) / Config.ticksPerMs

/-- A running timer counts down to 0 and stays there until its event is taken (log entry 4). -/
def tickTimer (t : Option Nat) : Option Nat := t.map (· - 1)

/-- The phase timer counts ticks outside SIGNAL (R34). -/
def tickPhase : PhaseTimer → PhaseTimer
  | .stopped => .stopped
  | .ticks left => .ticks (left - 1)
  | .frames left => .frames left

/-! ## Accessors -/

def State.input (s : State) : RfId → RfInput
  | .rf0 => s.rf0
  | .rf1 => s.rf1

def State.setInput (s : State) (i : RfId) (v : RfInput) : State :=
  match i with
  | .rf0 => { s with rf0 := v }
  | .rf1 => { s with rf1 := v }

def State.slot (s : State) (n : SlotId) : Slot := s.slots[n]

def State.setSlot (s : State) (n : SlotId) (v : Slot) : State := { s with slots := s.slots.set n v }

def State.egress (s : State) : Side → Egress
  | .a => s.egressA
  | .b => s.egressB

def State.setEgress (s : State) (e : Side) (v : Egress) : State :=
  match e with
  | .a => { s with egressA := v }
  | .b => { s with egressB := v }

def State.link (s : State) : Side → LinkUnit
  | .a => s.linkA
  | .b => s.linkB

def State.setLink (s : State) (l : Side) (v : LinkUnit) : State :=
  match l with
  | .a => { s with linkA := v }
  | .b => { s with linkB := v }

def State.capture (s : State) : CtxId → CaptureContext
  | .c0 => s.capture0
  | .c1 => s.capture1

def State.setCapture (s : State) (c : CtxId) (v : CaptureContext) : State :=
  match c with
  | .c0 => { s with capture0 := v }
  | .c1 => { s with capture1 := v }

def Agent.requests (g : Agent) : Side → List (List Byte)
  | .a => g.requestsA
  | .b => g.requestsB

def Agent.setRequests (g : Agent) (l : Side) (q : List (List Byte)) : Agent :=
  match l with
  | .a => { g with requestsA := q }
  | .b => { g with requestsB := q }

def Agent.replies (g : Agent) : Side → List Reply
  | .a => g.repliesA
  | .b => g.repliesB

def Agent.setReplies (g : Agent) (l : Side) (q : List Reply) : Agent :=
  match l with
  | .a => { g with repliesA := q }
  | .b => { g with repliesB := q }

/-- A flag's source event (R194). -/
def State.latch (s : State) (f : EventFlag) : State := { s with events := latchEvent f s.events }

/-- A condition under which a flag is latched. -/
def State.latchIf (s : State) (b : Bool) (f : EventFlag) : State := if b then s.latch f else s

/-- The other link or egress. -/
def otherSide : Side → Side
  | .a => .b
  | .b => .a

/-- The other capture context. -/
def otherContext : CtxId → CtxId
  | .c0 => .c1
  | .c1 => .c0

/-! ## Waiting for PLL lock -/

/-- Nothing in the part moves until the PLL has locked (01, section 1.2): before that a command changes nothing. -/
def State.whenLocked (s : State) (t : State) : State := if s.power = .locked then t else s

/-- An event that the present state does not hold changes nothing (log entry 3). -/
def State.whenDue (s : State) (due : Bool) (t : State) : State := if s.power = .locked ∧ due then t else s

/-! ## Packet Memory (R117 to R126) -/

/-- The buffers that a pending item holds: a packet's one, a record's none (R191, R192). -/
def PendingItem.buffers : PendingItem → List BufferId
  | .packet id _ _ => [id]
  | .roundEnd _ _ _ => []
  | .endRecord _ _ _ _ _ => []

/-- The buffers in a context's pending list. -/
def CaptureContext.buffers (c : CaptureContext) : List BufferId := c.pending.flatMap PendingItem.buffers

/-- The buffers in an egress's six sub-queues. -/
def Egress.buffers (e : Egress) : List BufferId := allSlots.flatMap fun n => e.queues[n].map Buffer.id

/-- Every held buffer: it stands in a sub-queue or in a pending list (R117). -/
def State.heldBuffers (s : State) : List BufferId :=
  s.egressA.buffers ++ s.egressB.buffers ++ s.capture0.buffers ++ s.capture1.buffers

/-- The number of held buffers of a bank. -/
def State.bankHeld (s : State) (b : Fin 8) : Nat := s.heldBuffers.countP fun id => id.bank == b

/-- The free count of a bank: 128 less its held buffers (R118). -/
def State.bankFree (s : State) (b : Fin 8) : Nat := Config.bankBuffers - s.bankHeld b

/-- Whether a bank lends buffers to an owner: it is ACTIVE and the owner's (R118). -/
def State.lends (s : State) (o : Owner) (b : Fin 8) : Bool := s.banks[b].owner == o && s.banks[b].state == .active

/-- Capacity, free count and holding of an owner's pool (R119). -/
def State.poolCapacity (s : State) (o : Owner) : Nat := Config.bankBuffers * allBanks.countP (s.lends o)

def State.poolFree (s : State) (o : Owner) : Nat := ((allBanks.filter (s.lends o)).map s.bankFree).sum

def State.poolHolding (s : State) (o : Owner) : Nat :=
  ((allBanks.filter fun b => s.banks[b].owner == o).map s.bankHeld).sum

/-- The lowest-numbered free buffer of a bank (R120). -/
def State.lowestFree (s : State) (b : Fin 8) : Option BufferId :=
  ((List.range Config.bankBuffers).map fun i => (⟨b, i⟩ : BufferId)).find? fun id => !s.heldBuffers.contains id

/-- The buffer an allocation chooses: the lowest free one of the lowest bank that lends to the owner and has a free
buffer (R120). -/
def State.allocate (s : State) (o : Owner) : Option BufferId :=
  match allBanks.find? fun b => s.lends o b && decide (0 < s.bankFree b) with
  | some b => s.lowestFree b
  | none => none

/-- A SUSPENDED context returns to ACTIVE (R189). -/
def CaptureContext.resume (c : CaptureContext) : CaptureContext :=
  if c.state = .suspended then { c with state := .active } else c

/-- Both contexts resume when the CAPTURE pool's free count is at least 1 (R189). -/
def State.resumeCaptures (s : State) : State :=
  if 1 ≤ s.poolFree .capture then { s with capture0 := s.capture0.resume, capture1 := s.capture1.resume } else s

/-- The drain test of R126 on one bank: a DRAINING bank whose 128 buffers are free passes to its pending owner. -/
def State.drainTest (s : State) (b : Fin 8) : State :=
  match s.banks[b].state with
  | .active => s
  | .draining o => if s.bankHeld b = 0 then { s with banks := s.banks.set b ⟨o, .active⟩ } else s

/-- What follows when buffers have left their sub-queue or pending list: the drain test of each one's bank, then the
resuming of captures (R123, R126, R189). -/
def State.afterFree (s : State) (freed : List BufferId) : State :=
  (freed.foldl (fun t id => t.drainTest id.bank) s).resumeCaptures

/-! ## Ending a capture (R192) -/

/-- A capture ends with a reason: the reason is stored, an end record is appended and the context enters DRAINING. -/
def CaptureContext.finish (r : EndReason) (c : CaptureContext) : CaptureContext :=
  { c with
    state := .draining
    endReason := some r
    pending := c.pending ++ [.endRecord r c.captured c.missed c.round c.truncated] }

/-- Whether a context examines the deliveries of a slot: it is ACTIVE or SUSPENDED and watches that slot (R189). -/
def CaptureContext.watches (c : CaptureContext) (n : SlotId) : Bool :=
  (c.state == .active || c.state == .suspended) && c.slot == n

/-- The watched slot left TRACK or entered OFF: a running capture of it ends (R56, R192). -/
def CaptureContext.slotLeft (n : SlotId) (c : CaptureContext) : CaptureContext :=
  if c.watches n then c.finish .slotLeftTrack else c

/-- Every capture that watches a slot ends (R56). -/
def State.endCaptures (s : State) (n : SlotId) : State :=
  { s with capture0 := s.capture0.slotLeft n, capture1 := s.capture1.slotLeft n }

/-! ## Answers to requests (R183) -/

/-- What an owning rule gives a request: the state after it, the status and the data bytes of the reply. -/
structure Answer where
  state : State
  status : Status
  data : List Byte

/-- Accepted, with data. -/
def State.accept (s : State) (data : List Byte) : Answer := ⟨s, .ok, data⟩

/-- Refused with nothing changed. -/
def State.refuse (s : State) (status : Status) (data : List Byte) : Answer := ⟨s, status, data⟩

/-- The next n free values as data bytes, for an item of a reply to which the spec gives no value (log entry 22). -/
def State.freeBytes (s : State) (n : Nat) : List Byte :=
  (List.range n).map fun k => Config.freeByte (s.freeCount + k)

/-- The free values used are counted, so that the next ones are others. -/
def State.useFree (s : State) (n : Nat) : State := { s with freeCount := s.freeCount + n }

end Sys2Proof.Machine
end

