-- ==== Sys2Proof/Machine/Echo.lean ====
section
/-! DEFINITION. Chapter 4: the echo table of a measurement, captured energy, the ranking, the main shift and the
tracking decision. -/

namespace Sys2Proof.Machine

open Sys2Proof

/-! ## Sorting by a stated order -/

/-- An item put before the first one that it must precede. -/
def insertBy {α : Type} (before : α → α → Bool) (a : α) : List α → List α
  | [] => [a]
  | b :: bs => if before a b then a :: b :: bs else b :: insertBy before a bs

def sortBy {α : Type} (before : α → α → Bool) : List α → List α
  | [] => []
  | a :: as => insertBy before a (sortBy before as)

/-! ## The symbol structure (R34, R63) -/

/-- The guard length in samples (R34). -/
def guardSamples : Structure → Int
  | ⟨.s, .g4⟩ => 512
  | ⟨.s, .g8⟩ => 256
  | ⟨.s, .g16⟩ => 128
  | ⟨.s, .g32⟩ => 64
  | ⟨.l, .g4⟩ => 2048
  | ⟨.l, .g8⟩ => 1024
  | ⟨.l, .g16⟩ => 512
  | ⟨.l, .g32⟩ => 256

/-- The least and the greatest delay of a mode (R63); without a detected mode, those of mode L (log entry 31). -/
def delayMin : Option Structure → Int
  | some ⟨.s, _⟩ => -1024
  | _ => -4096

def delayMax : Option Structure → Int
  | some ⟨.s, _⟩ => 1023
  | _ => 4095

/-- A reference set to the nearest limit of the delay range (R68). -/
def clampDelay (d : Option Structure) (r : Int) : Int := max (delayMin d) (min (delayMax d) r)

/-! ## The paths of one measurement (R64, R65) -/

/-- An arrival joins the resolved arrivals, in ascending position; arrivals closer together than one sample are one path
with their combined power (R64; positions are whole samples, log entry 8). -/
def joinArrival (a : Arrival) : List Arrival → List Arrival
  | [] => [a]
  | b :: bs =>
    if a.position < b.position then a :: b :: bs
    else if a.position = b.position then { b with power := b.power + a.power } :: bs
    else b :: joinArrival a bs

/-- The resolved paths of a measurement in ascending position; an arrival without power is not resolved. -/
def resolvedPaths (arrivals : List Arrival) : List Arrival :=
  (arrivals.filter fun a => decide (0 < a.power)).foldr joinArrival []

/-- The strongest path, the earliest of equally strong ones: the main path (R65). -/
def strongest : List Arrival → Option Arrival
  | [] => none
  | a :: as =>
    match strongest as with
    | none => some a
    | some b => if b.power ≤ a.power then some a else some b

/-- The main path of a measurement. -/
def mainArrival (arrivals : List Arrival) : Option Arrival := strongest (resolvedPaths arrivals)

/-- Received power relative to the main path's, times 256, halves rounded up; before the main path at most 255 (R64). -/
def relativePower (main a : Arrival) : Nat :=
  min ((512 * a.power + main.power) / (2 * main.power)) (if a.position < main.position then 255 else 256)

/-- A resolved path as the table lists it. -/
def echoPathOf (main a : Arrival) : EchoPath := ⟨a.position - main.position, relativePower main a⟩

/-- Whether a path other than the main path may be listed: in the delay range and at or above the floor (R64, R65). -/
def listable (d : Option Structure) (p : EchoPath) : Bool :=
  decide (p.delay ≠ 0 ∧ delayMin d ≤ p.delay ∧ p.delay ≤ delayMax d ∧ 2 ≤ p.power)

/-- The order of the competition for the last places: stronger first, then earlier (R65; log entry 14). -/
def strongerPath (p q : EchoPath) : Bool := decide (q.power < p.power ∨ q.power = p.power ∧ p.delay < q.delay)

/-- Ascending delay (R63). -/
def earlierPath (p q : EchoPath) : Bool := decide (p.delay < q.delay)

/-- The other paths that are listed beside the main path: the seven strongest (R65). -/
def otherPaths (d : Option Structure) (main : Arrival) (arrivals : List Arrival) : List EchoPath :=
  (sortBy strongerPath (((resolvedPaths arrivals).map (echoPathOf main)).filter (listable d))).take
    (Config.echoPaths - 1)

/-- The echo table of a measurement (R65); one that resolves no path gives an empty table. -/
def echoTable (d : Option Structure) (arrivals : List Arrival) : List EchoPath :=
  match mainArrival arrivals with
  | none => []
  | some main => sortBy earlierPath (⟨0, 256⟩ :: otherPaths d main arrivals)

/-! ## Energies and the ranking (R69 to R71) -/

/-- The eligible paths of a table under a capture threshold (R69). -/
def eligiblePaths (threshold : Nat) (table : List EchoPath) : List EchoPath :=
  table.filter fun p => decide (threshold ≤ p.power)

/-- The total eligible energy (R69). -/
def totalEnergy (threshold : Nat) (table : List EchoPath) : Nat :=
  ((eligiblePaths threshold table).map EchoPath.power).sum

/-- The captured energy of a window reference, both ends of the span included (R70). -/
def capturedEnergy (threshold : Nat) (span : Int) (table : List EchoPath) (r : Int) : Nat :=
  (((eligiblePaths threshold table).filter fun p => decide (r ≤ p.delay ∧ p.delay ≤ r + span)).map
    EchoPath.power).sum

/-- A candidate of the ranking, not tried (R71). -/
def candidateOf (threshold : Nat) (span : Int) (table : List EchoPath) (p : EchoPath) : Candidate where
  reference := p.delay
  energy := capturedEnergy threshold span table p.delay
  trial := .notTried
  errors := 0

/-- Highest captured energy first, then ascending delay (R71). -/
def rankedBefore (a b : Candidate) : Bool :=
  decide (b.energy < a.energy ∨ b.energy = a.energy ∧ a.reference < b.reference)

/-- The whole ranking of a table (R71). -/
def ranking (threshold : Nat) (span : Int) (table : List EchoPath) : List Candidate :=
  sortBy rankedBefore ((eligiblePaths threshold table).map (candidateOf threshold span table))

/-! ## The slot's echo state -/

/-- The record the receiver reads (R19). An enabled slot has one; without it the power-on record (log entry 31). -/
def Slot.tuning (x : Slot) : TuningRecord := x.active.getD TuningRecord.initial

/-- The guard length of the detected structure; 0 without one (log entry 31). -/
def Slot.span (x : Slot) : Int := (x.detected.map guardSamples).getD 0

/-- The captured energy of a reference against the slot's current table (R70). -/
def Slot.captured (x : Slot) (r : Int) : Nat := capturedEnergy x.tuning.captureThreshold x.span x.echo r

/-- Every path eligible against the slot's active record (R69). -/
def Slot.eligible (x : Slot) (p : EchoPath) : Bool := decide (x.tuning.captureThreshold ≤ p.power)

/-- The table of a measurement takes the place of the slot's table, with its total energy and its ranking (R66, R67). -/
def Slot.measureEcho (arrivals : List Arrival) (x : Slot) : Slot :=
  let table := echoTable x.detected arrivals
  { x with
    echo := table
    total := totalEnergy x.tuning.captureThreshold table
    candidates := (ranking x.tuning.captureThreshold x.span table).take x.tuning.candidateLimit }

/-- The top candidate of a slot's list (R71). -/
def Slot.top (x : Slot) : Option Candidate := x.candidates.head?

/-- Whether a window reference leaves eligible energy uncaptured (R72, R76, R80). -/
def Slot.spreads (x : Slot) (r : Int) : Bool := decide (x.captured r < x.total)

/-- Whether the slot's window is present and leaves eligible energy uncaptured (R80, R83). -/
def Slot.windowSpreads (x : Slot) : Bool :=
  match x.window with
  | some r => x.spreads r
  | none => false

/-- The first entry that has not been tried begins its trial (R73). -/
def beginTrial : List Candidate → List Candidate
  | [] => []
  | c :: cs => if c.trial = .notTried then { c with trial := .settling, errors := 0 } :: cs else c :: beginTrial cs

/-- Ticks of half the window dwell (R73). -/
def Slot.halfDwell (x : Slot) : Nat := ms (x.tuning.dwell / 2)

/-- The build in WINDOW and the begin of the first trial (R66, R73). -/
def Slot.build (arrivals : List Arrival) (x : Slot) : Slot :=
  let y := x.measureEcho arrivals
  { y with
    candidates := beginTrial y.candidates
    timingRef := ((mainArrival arrivals).map Arrival.position).or x.timingRef
    mainShift := 0
    trialTimer := some x.halfDwell }

/-- The ECHO_SPREAD test of the build (R72). -/
def Slot.topSpreads (x : Slot) : Bool :=
  match x.top with
  | some c => decide (c.energy < x.total)
  | none => false

/-- The main shift of a rebuild: 0 within 4 samples of the timing reference, else the signed delay (R68). -/
def mainShiftOf (timingRef : Option Int) (position : Int) : Int :=
  match timingRef with
  | none => 0
  | some r => if -4 ≤ position - r ∧ position - r ≤ 4 then 0 else position - r

/-- The timing reference and the window reference follow the main path of a rebuild (R68; log entry 15). -/
def Slot.followMain (arrivals : List Arrival) (x : Slot) : Slot :=
  match mainArrival arrivals with
  | none => { x with mainShift := 0 }
  | some main =>
    let shift := mainShiftOf x.timingRef main.position
    { x with
      timingRef := some main.position
      mainShift := shift
      window := x.window.map fun r => clampDelay x.detected (r - shift) }

/-- Whether the top candidate beats the window by the margin of one eighth (R78). -/
def Slot.beats (x : Slot) (c : Candidate) (r : Int) : Bool :=
  decide (c.reference ≠ r ∧ x.captured r + x.captured r / 8 ≤ c.energy)

/-- The tracking decision; a decided move is pending until the next symbol boundary (R78, R79). -/
def Slot.track (x : Slot) : Slot :=
  match x.top, x.window with
  | some c, some r => if x.beats c r then { x with window := some c.reference, movePending := true } else x
  | _, _ => x

/-- A rebuild in TRACK (R67). The ECHO_SPREAD test of R80 is windowSpreads of its result. -/
def Slot.rebuild (arrivals : List Arrival) (x : Slot) : Slot :=
  ((x.measureEcho arrivals).followMain arrivals).track

end Sys2Proof.Machine
end

