-- ==== Sys2Proof/Machine/FrontEnd.lean ====
section
/-! DEFINITION. Chapter 1: the gain loops, clipping and overload, the auxiliary lines and mast protection. -/

namespace Sys2Proof.Machine

open Sys2Proof

/-! ## RF Capture Unit (R3 to R9) -/

/-- A mean power given in 0.1 dB below full scale, as stored: a mean below −80.0 dBFS is −80.0 (R3, R37). -/
def storedLevel (belowFs : Nat) : Int := -(min belowFs 800 : Nat)

/-- A taken step up, and whether it met the limit (R5). -/
def RfInput.stepUp (x : RfInput) : RfInput × Bool :=
  if x.gain < 40 then ({ x with gain := x.gain + 1 }, false) else ({ x with gain := 40 }, true)

/-- A taken step down, and whether it met the limit (R5). -/
def RfInput.stepDown (x : RfInput) : RfInput × Bool :=
  if 0 < x.gain then ({ x with gain := x.gain - 1 }, false) else (x, true)

/-- One evaluation of the gain loop (R4): the mean is stored, then compared with the window; an upward step is
suppressed while the overload hold runs. The Bool says whether GAIN_LIMIT is latched. -/
def RfInput.evaluate (belowFs : Nat) (x : RfInput) : RfInput × Bool :=
  let y := { x with mean := storedLevel belowFs, evalDue := false }
  if y.mean < -150 then (if y.hold = none then y.stepUp else (y, false))
  else if -90 < y.mean then y.stepDown
  else (y, false)

/-- A clipped sample raises the count; the 17th of an interval makes an overload due (R6, log entry 9). -/
def RfInput.clip (x : RfInput) : RfInput :=
  let n := min (x.clipNow + 1) Config.count16Max
  { x with clipNow := n, overloadDue := x.overloadDue || n == Config.overloadClips }

/-- The end of a 1 ms interval (R6). -/
def RfInput.endInterval (x : RfInput) : RfInput :=
  { x with clipLast := x.clipNow, clipNow := 0, clipDue := false }

/-- The overload step of R7; the Bool says whether the gain was clamped at 0 dB (R5). -/
def RfInput.overloadStep (x : RfInput) : RfInput × Bool :=
  ({ x with gain := x.gain - 6, hold := some (ms Config.overloadHoldMs), overloadDue := false },
   decide (x.gain < 6))

/-- GAIN_EVALUATION (R4, R5). -/
def State.gainEvaluation (s : State) (i : RfId) (belowFs : Nat) : State :=
  (s.setInput i ((s.input i).evaluate belowFs).1).latchIf ((s.input i).evaluate belowFs).2 (.gainLimit i)

/-- OVERLOAD (R5, R7). -/
def State.overload (s : State) (i : RfId) : State :=
  ((s.setInput i (s.input i).overloadStep.1).latch (.overload i)).latchIf (s.input i).overloadStep.2 (.gainLimit i)

/-- The data of one input in a FRONT_READ reply (R9). -/
def RfInput.report (x : RfInput) : List Byte :=
  beBytes 1 x.gain ++ beBytes 1 (msLeft (x.hold.getD 0)) ++ beSigned 2 x.mean ++ beBytes 2 x.clipLast

/-- FRONT_READ (R9). -/
def State.frontRead (s : State) : Answer :=
  s.accept (beBytes 4 s.time.stc.toNat ++ s.rf0.report ++ s.rf1.report)

def execGainEvaluation (i : RfId) (belowFs : Nat) (s : State) : Host.Outcome State Fault Refusal :=
  .next (s.whenDue (s.input i).evalDue (s.gainEvaluation i belowFs))

def execClipIntervalEnd (i : RfId) (s : State) : Host.Outcome State Fault Refusal :=
  .next (s.whenDue (s.input i).clipDue (s.setInput i (s.input i).endInterval))

def execOverload (i : RfId) (s : State) : Host.Outcome State Fault Refusal :=
  .next (s.whenDue (s.input i).overloadDue (s.overload i))

/-- The hold timer has reached 0; with the expiry taken, upward steps are allowed again (R7). -/
def execOverloadHoldExpiry (i : RfId) (s : State) : Host.Outcome State Fault Refusal :=
  .next (s.whenDue ((s.input i).hold == some 0) (s.setInput i { s.input i with hold := none }))

def execClippedSample (i : RfId) (s : State) : Host.Outcome State Fault Refusal :=
  .next (s.whenLocked (s.setInput i (s.input i).clip))

/-! ## Auxiliary Line Unit (R10 to R15) -/

/-- The level on a pin, high as true (R10): an undriven pin floats high on its pull-up. -/
def pinLevel (mode : LineMode) (latch : Bool) (drive : LineDrive) : Bool :=
  match mode with
  | .input => drive != .low
  | .openDrain => latch && drive != .low
  | .pushPull => latch

def AuxUnit.pin0 (x : AuxUnit) : Bool := pinLevel x.mode0 x.latch0 x.drive0

def AuxUnit.pin1 (x : AuxUnit) : Bool := pinLevel x.mode1 x.latch1 x.drive1

/-- Mast protection is armed while the setting is ON and AUX1 is an input (R14). -/
def AuxUnit.armed (x : AuxUnit) : Bool := x.protection && x.mode1 == .input

/-- A low run is under way: armed, with AUX1 low (R14). -/
def AuxUnit.lowRunning (x : AuxUnit) : Bool := x.armed && !x.pin1

/-- The low-run timer goes on only through a run that was already under way; otherwise it stands at 0 (R14). -/
def AuxUnit.settle (before x : AuxUnit) : AuxUnit :=
  { x with lowRun := if before.lowRunning && x.lowRunning then before.lowRun else 0 }

/-- The AUX_READ contents (R13); the low-run timer in whole tenths of a millisecond (log entry 26). -/
def AuxUnit.contents (x : AuxUnit) : List Byte :=
  flagByte x.pin0 ++ flagByte x.pin1 ++ flagByte x.latch0 ++ flagByte x.latch1 ++
    [lineModeCode x.mode0, lineModeCode x.mode1] ++ flagByte x.protection ++ flagByte x.armed ++
    beBytes 1 (min (x.lowRun / 2700) 19)

/-- AUX_SET replaces both modes and the protection setting (R11). -/
def AuxUnit.configure (m0 m1 : LineMode) (protection : Bool) (x : AuxUnit) : AuxUnit :=
  x.settle { x with mode0 := m0, mode1 := m1, protection := protection }

def State.auxSet (s : State) (mode0 mode1 protection : Byte) : Answer :=
  match lineModeOf mode0, lineModeOf mode1, flagOf protection with
  | some m0, some m1, some p =>
    ({ s with aux := s.aux.configure m0 m1 p } : State).accept (s.aux.configure m0 m1 p).contents
  | _, _, _ => s.refuse .badArg []

/-- AUX_WRITE loads both latches: a line in the mask from its value, the other from its pin (R12). -/
def AuxUnit.load (mask value0 value1 : Byte) (x : AuxUnit) : AuxUnit :=
  x.settle
    { x with
      latch0 := if mask.getLsbD 0 then value0 == 1 else x.pin0
      latch1 := if mask.getLsbD 1 then value1 == 1 else x.pin1 }

/-- Whether AUX_WRITE's parameters are in range (R12): mask bits 7–2 clear, and a 0 or 1 for each line in the mask. -/
def auxWriteOk (mask value0 value1 : Byte) : Bool :=
  decide (mask.toNat < 4) && (!mask.getLsbD 0 || (flagOf value0).isSome) && (!mask.getLsbD 1 || (flagOf value1).isSome)

def State.auxWrite (s : State) (mask value0 value1 : Byte) : Answer :=
  if auxWriteOk mask value0 value1 then
    ({ s with aux := s.aux.load mask value0 value1 } : State).accept (s.aux.load mask value0 value1).contents
  else s.refuse .badArg []

/-- AUX_READ (R13). -/
def State.auxRead (s : State) : Answer := s.accept s.aux.contents

/-- A trip of mast protection (R15): AUX0's latch to 0, and the timer restarts while the low run continues. -/
def State.trip (s : State) : State :=
  ({ s with aux := { s.aux with latch0 := false, lowRun := 0 } } : State).latch .mastFault

/-- The timer of the running low run has reached 2 ms (R14). -/
def AuxUnit.tripDue (x : AuxUnit) : Bool := x.lowRunning && decide (Config.tripTicks ≤ x.lowRun)

def execMastProtectionTrip (s : State) : Host.Outcome State Fault Refusal :=
  .next (s.whenDue s.aux.tripDue s.trip)

/-- The board's drives change; a low run begins from 0 or ends (R14). The pins are outside the part, so their levels
change whether or not the PLL has locked (log entry 6). -/
def execAux1LevelChange (aux1 aux0 : LineDrive) (s : State) : Host.Outcome State Fault Refusal :=
  .next { s with aux := s.aux.settle { s.aux with drive1 := aux1, drive0 := aux0 } }

/-- One tick of the low-run timer (R14). -/
def AuxUnit.tick (x : AuxUnit) : AuxUnit :=
  { x with lowRun := if x.lowRunning then min (x.lowRun + 1) Config.tripTicks else 0 }

/-- One tick of an input: the hold counts down, and the ends of the 1 ms interval and the 10 ms period come due
(R4, R6, R7). -/
def RfInput.tick (endsMs endsTenMs : Bool) (x : RfInput) : RfInput :=
  { x with hold := tickTimer x.hold, clipDue := x.clipDue || endsMs, evalDue := x.evalDue || endsTenMs }

end Sys2Proof.Machine
end

