-- ==== Sys2Proof/Machine/Acquisition.lean ====
section
/-! DEFINITION. Chapter 3 and the measurements of chapter 5: attempt starts, failures, the states of acquisition and
tracking, signalling words, candidate trials. -/

namespace Sys2Proof.Machine

open Sys2Proof

/-! ## Attempts, failures and OFF -/

/-- The four run counts return to 0 (R86). -/
def Slot.zeroRuns (x : Slot) : Slot := { x with syncRun := 0, uncRun := 0, wrongRun := 0, goodRun := 0 }

/-- Echo table, its energy and candidate list are emptied (R20, R63, R71). -/
def Slot.clearTables (x : Slot) : Slot := { x with echo := [], total := 0, candidates := [] }

/-- The window becomes absent, with the main shift, a pending move and a running trial (R68, R77, R79). -/
def Slot.dropWindow (x : Slot) : Slot :=
  { x with window := none, mainShift := 0, movePending := false, trialTimer := none }

/-- The three measurements become absent (R28, R35, R51). -/
def Slot.dropMeasurements (x : Slot) : Slot := { x with channelPower := none, freqOffset := none, mer := none }

/-- Every item of R34 takes its power-on value. -/
def Slot.resetItems (x : Slot) : Slot :=
  { x with
    detected := none
    phase := .stopped
    noSignal := false
    senseWaiting := false
    framePos := 0
    halfMade := none
    changePending := false }

/-- The items that an attempt start clears, the echo table and the list apart (R20, R35, R86). -/
def Slot.clearAttempt (x : Slot) : Slot :=
  { x.resetItems.dropWindow.dropMeasurements.zeroRuns with sigRecord := none }

/-- The echo table and the list are kept after a WINDOW_FAIL and emptied otherwise (R20, R51). -/
def Slot.keepTables (keep : Bool) (x : Slot) : Slot := if keep then x else x.clearTables

/-- An attempt start: the programmed record is copied into the active record, and the slot enters the state that the
attempt start names with that state's phase timer (R20, R35). -/
def Slot.attemptStart (entered : AcqState) (limitMs : Nat) (keep : Bool) (x : Slot) : Slot :=
  { (x.clearAttempt.keepTables keep) with
    active := some x.programmed
    acq := entered
    phase := .ticks (ms limitMs) }

/-- An attempt start into SENSE, which begins a measurement of 20 ms (R37). -/
def Slot.startSense (keep : Bool) (x : Slot) : Slot := x.attemptStart .sense Config.senseMeasureMs keep

/-- The entry to BACKOFF: the rest is the interval before its doubling (R51, R52; log entry 13). -/
def Slot.enterBackoff (keep : Bool) (x : Slot) : Slot :=
  { ((x.dropWindow.dropMeasurements).keepTables keep) with
    acq := .backoff
    phase := .ticks (ms (1000 * x.backoff))
    backoff := min (2 * x.backoff) Config.backoffMax
    sigRecord := none
    detected := none
    halfMade := none }

/-- A failure of the attempt, but for the event it latches: the reason, the counter and the attempt count, then the retry
or BACKOFF (R50, R51). -/
def Slot.fail (r : FailureReason) (x : Slot) : Slot :=
  let y := { x with
    lastFailure := r
    attempts := x.attempts + 1
    counters := { x.counters with acqFailures := bump x.counters.acqFailures 1 } }
  if y.attempts < 3 then y.startSense (r == .windowFail) else y.enterBackoff (r == .windowFail)

/-- A failure of a slot's attempt (R50). -/
def State.failAttempt (s : State) (n : SlotId) (r : FailureReason) : State :=
  (s.setSlot n ((s.slot n).fail r)).latch (.acqFailed n)

/-- An enabled slot enters OFF (R28, R34, R86). -/
def Slot.toOff (x : Slot) : Slot :=
  { x.clearAttempt.clearTables with active := none, acq := .off, attempts := 0, backoff := 1 }

/-! ## Entries to the working states -/

/-- SYNC after a parameter change: no copy is made (R59, R60). -/
def Slot.enterSync (x : Slot) : Slot := { x with acq := .sync, phase := .ticks (ms Config.syncLimitMs) }

/-- Six word results are counted and no agreement is half made (R45, R60). -/
def Slot.enterSignal (x : Slot) : Slot := { x with acq := .signal, phase := .frames Config.signalFrames, halfMade := none }

/-- Table, window and list are discarded, and the build begins (R47, R66, R68). -/
def Slot.enterWindow (x : Slot) : Slot :=
  { x.clearTables with acq := .window, phase := .stopped, window := none, movePending := false, trialTimer := none }

/-- The limit of 300 ms; the outer decoder starts (R48, R86). -/
def Slot.enterFecWait (x : Slot) : Slot :=
  { x.zeroRuns with acq := .fecWait, phase := .ticks (ms Config.fecLimitMs), trialTimer := none }

/-- Entry to TRACK from FEC_WAIT or HOLD (R49, R86). -/
def Slot.enterTrack (x : Slot) : Slot :=
  { x.zeroRuns with
    acq := .track, phase := .stopped, attempts := 0, backoff := 1, halfMade := none, changePending := false }

/-- Entry to HOLD (R53, R86). -/
def Slot.enterHold (x : Slot) : Slot :=
  { x.zeroRuns with
    acq := .hold, phase := .ticks (ms x.tuning.holdMs), halfMade := none, changePending := false }

/-- The lock is lost, but for the event latched: counted, and the restart at SYNC (R55). -/
def Slot.expireHold (x : Slot) : Slot :=
  let y := { x with attempts := 0, counters := { x.counters with lockLosses := bump x.counters.lockLosses 1 } }
  y.attemptStart .sync Config.syncLimitMs false

/-- The expiry of HOLD (R55). -/
def State.expireHold (s : State) (n : SlotId) : State :=
  (s.setSlot n (s.slot n).expireHold).latch (.lockLost n)

/-- The exit from TRACK to HOLD: captures of the slot end; with a hold time of 0 the expiry is part of the entry
(R53, R56). -/
def State.enterHold (s : State) (n : SlotId) : State :=
  let t := (s.setSlot n (s.slot n).enterHold).endCaptures n
  if (s.slot n).tuning.holdMs = 0 then t.expireHold n else t

/-- An exit from TRACK to SIGNAL or SYNC: captures of the slot end and the MER estimate becomes absent (R56). -/
def State.leaveTrack (s : State) (n : SlotId) (enter : Slot → Slot) : State :=
  (s.setSlot n (enter { s.slot n with mer := none, changePending := false, halfMade := none })).endCaptures n

/-! ## SENSE and SYNC -/

/-- The 20 ms measurement ends (R37, R38). -/
def Slot.endMeasurement (belowFs : Nat) (x : Slot) : Slot :=
  let y := { x with channelPower := some (storedLevel belowFs) }
  if 10 * x.tuning.threshold ≤ storedLevel belowFs then { y.enterSync with noSignal := false, senseWaiting := false }
  else { y with noSignal := true, senseWaiting := true, phase := .ticks (ms Config.senseWaitMs) }

/-- The 200 ms wait ends and a new measurement begins (R38). -/
def Slot.endWait (x : Slot) : Slot := { x with senseWaiting := false, phase := .ticks (ms Config.senseMeasureMs) }

/-- Whether the active record allows a pair of mode and guard (R39). -/
def Slot.searches (x : Slot) (m : CarrierMode) (g : Guard) : Bool :=
  (x.tuning.mode == none || x.tuning.mode == some m) &&
    (x.tuning.guardFraction == none || x.tuning.guardFraction == some g)

/-- An offset rounded to whole Hz, halves away from zero, and clamped (R93). R39 gives SYNC's first offset no rounding:
that it is rounded as R93 rounds at frame ends is the model's choice (DESIGN CHOICE, log entry 32). -/
def storedOffset (milliHz : Int) : Int :=
  let hz := if 0 ≤ milliHz then (milliHz + 500) / 1000 else -((500 - milliHz) / 1000)
  max (-(Config.offsetLimitHz : Int)) (min (Config.offsetLimitHz : Int) hz)

/-- The structure is found (R39); its offset is rounded by the model's choice of log entry 32. -/
def Slot.findStructure (m : CarrierMode) (g : Guard) (milliHz : Int) (x : Slot) : Slot :=
  { x with detected := some ⟨m, g⟩, freqOffset := some (storedOffset milliHz) }.enterSignal

/-! ## Signalling words (R41 to R46) -/

/-- An expectation that is set and differs (R42). -/
def differs {α : Type} [DecidableEq α] (expected : Option α) (found : α) : Bool :=
  match expected with
  | none => false
  | some e => e != found

/-- The mismatch test (R42). -/
def Slot.mismatches (x : Slot) (w : SigWord) : Bool :=
  differs x.tuning.mode w.mode || differs x.tuning.guardFraction w.guardFraction ||
    differs x.tuning.constellation w.constellation || differs x.tuning.rate w.rate || differs x.tuning.cellId w.cellId

/-- A word that cannot take part in an agreement (R43). -/
def Slot.disqualifies (x : Slot) (w : SigWord) : Bool :=
  w.announced || x.detected != some ⟨w.mode, w.guardFraction⟩

/-- The second of two consecutive words: equal but for the frame index, which is the next one (R44, R59). -/
def followsWord (half : Option SigWord) (w : SigWord) : Bool :=
  match half with
  | none => false
  | some v => { v with frameIndex := w.frameIndex } == w && w.frameIndex == v.frameIndex + 1

/-- Same carrier mode and guard fraction. -/
def sameStructure (v w : SigWord) : Bool := v.mode == w.mode && v.guardFraction == w.guardFraction

/-- An accepted word (R46). -/
def Slot.acceptWord (w : SigWord) (x : Slot) : Slot :=
  let y := { x with sigRecord := some w, framePos := w.frameIndex, halfMade := none, phase := .stopped }
  match x.sigRecord with
  | some v => if sameStructure v w then y.enterFecWait else y.enterWindow
  | none => y.enterWindow

/-- Remaining word results (R45). -/
def framesLeft : PhaseTimer → Nat
  | .frames left => left
  | .ticks _ => 0
  | .stopped => 0

/-- A result that does not accept: the agreement it leaves, and one result less; at 0 the attempt fails (R44, R45). -/
def State.countResult (s : State) (n : SlotId) (half : Option SigWord) : State :=
  let x := s.slot n
  let t := s.setSlot n { x with halfMade := half, phase := .frames (framesLeft x.phase - 1) }
  if framesLeft x.phase - 1 = 0 then t.failAttempt n .signalTimeout else t

/-- A word result in SIGNAL: mismatch, then agreement, then the limit (R42 to R45). -/
def State.signalResult (s : State) (n : SlotId) (result : WordResult) : State :=
  let x := s.slot n
  match result with
  | .uncounted => s
  | .bad => s.countResult n none
  | .good w =>
    if x.mismatches w then (s.latch (.mismatch n)).failAttempt n .mismatch
    else if x.disqualifies w then s.countResult n none
    else if followsWord x.halfMade w then s.setSlot n (x.acceptWord w)
    else s.countResult n (some w)

/-- The frame position after a result (R41). -/
def nextPosition (pos : BitVec 2) : WordResult → BitVec 2
  | .good w => w.frameIndex
  | .bad => pos + 1
  | .uncounted => pos + 1

/-- A word result in WINDOW, FEC_WAIT and HOLD, and its first effect in TRACK (R41). -/
def Slot.advanceFrame (result : WordResult) (x : Slot) : Slot :=
  { x with framePos := nextPosition x.framePos result }

/-! ## Words and rebuilds in TRACK (R57 to R61, R67, R94) -/

/-- A compatible word (R57). -/
def Slot.compatible (x : Slot) (w : SigWord) : Bool :=
  match x.sigRecord with
  | some v => { v with frameIndex := w.frameIndex, announced := w.announced } == w
  | none => false

/-- Whether a confirmed change keeps the symbol structure (R59). -/
def Slot.keepsStructure (x : Slot) (w : SigWord) : Bool :=
  match x.sigRecord with
  | some v => sameStructure v w
  | none => false

/-- The announced change of R58: change pending, and PARAM_CHANGE when it was clear. -/
def State.announce (s : State) (n : SlotId) : State :=
  (s.setSlot n { s.slot n with changePending := true }).latchIf (!(s.slot n).changePending) (.paramChange n)

/-- The superframe boundary with change pending takes the slot to SIGNAL (R58). -/
def State.superframeBoundary (s : State) (n : SlotId) : State :=
  if (s.slot n).changePending && (s.slot n).framePos == 3 then s.leaveTrack n Slot.enterSignal else s

/-- A confirmed unannounced change (R59). -/
def State.confirmChange (s : State) (n : SlotId) (w : SigWord) : State :=
  (s.latch (.paramChange n)).leaveTrack n (if (s.slot n).keepsStructure w then Slot.enterSignal else Slot.enterSync)

/-- The half-made agreement changes; a pending change may meet its boundary (R57 to R59). -/
def State.watch (s : State) (n : SlotId) (half : Option SigWord) : State :=
  (s.setSlot n { s.slot n with halfMade := half }).superframeBoundary n

/-- A word result in TRACK (R57 to R59; log entry 11). -/
def State.trackResult (s : State) (n : SlotId) (result : WordResult) : State :=
  let t := s.setSlot n ((s.slot n).advanceFrame result)
  match result with
  | .good w =>
    if (s.slot n).compatible w then (if w.announced then (t.announce n).watch n none else t.watch n none)
    else if followsWord (s.slot n).halfMade w then t.confirmChange n w
    else t.watch n (some w)
  | .bad => t.watch n none
  | .uncounted => t.watch n none

/-- The MER estimate in 0.1 dB from the two mean powers: i is reached when the ratio is at least i − 1/2 tenths of a dB,
that is when 10^(2i−1) times the 200th power of the error does not exceed that of the signal (R94; log entry 8). -/
def merOf (pointPower errorPower : Nat) : Nat :=
  if errorPower = 0 then 450
  else (List.range 450).countP fun i => decide (10 ^ (2 * i + 1) * errorPower ^ 200 ≤ pointPower ^ 200)

/-- The rebuild and the MER estimate of a frame end in TRACK (R67, R80, R94). -/
def State.rebuildFrame (s : State) (n : SlotId) (arrivals : List Arrival) (pointPower errorPower : Nat) : State :=
  let x := (s.slot n).rebuild arrivals
  (s.setSlot n { x with mer := some (merOf pointPower errorPower) }).latchIf x.windowSpreads (.echoSpread n)

/-- The later of two effects of a frame end, taken while the slot is still in TRACK (R82). -/
def State.ifTracking (s : State) (n : SlotId) (t : State) : State := if (s.slot n).acq = .track then t else s

/-- A signalling frame end in TRACK: rebuild and word in either order. A slot in TRACK has taken no exit, so `exitFirst`
is there a frame end like another (R67, R82; log entry 11). -/
def State.trackFrame (s : State) (n : SlotId) (result : WordResult) (arrivals : List Arrival)
    (pointPower errorPower : Nat) : FrameOrder → State
  | .rebuildFirst => (s.rebuildFrame n arrivals pointPower errorPower).trackResult n result
  | .exitFirst => (s.rebuildFrame n arrivals pointPower errorPower).trackResult n result
  | .wordFirst =>
    (s.trackResult n result).ifTracking n ((s.trackResult n result).rebuildFrame n arrivals pointPower errorPower)

/-- Whether the slot demodulates with its detected structure: SIGNAL to HOLD (R36, R93). -/
def AcqState.demodulates : AcqState → Bool
  | .signal => true
  | .window => true
  | .fecWait => true
  | .track => true
  | .hold => true
  | .off => false
  | .sense => false
  | .sync => false
  | .backoff => false

/-- The stored frequency offset takes the loop's value (R93). -/
def Slot.followCarrier (milliHz : Int) (x : Slot) : Slot := { x with freqOffset := some (storedOffset milliHz) }

/-- The frame position through SIGNAL: it moves from the first acceptance of the attempt onward, that is while a
signalling record is present; a frame without a result leaves it (R41; log entry 12). -/
def signalPosition (pos : BitVec 2) : WordResult → BitVec 2
  | .good w => w.frameIndex
  | .bad => pos + 1
  | .uncounted => pos

/-- The frame position's part of a word result in SIGNAL (R41). -/
def Slot.advanceInSignal (result : WordResult) (x : Slot) : Slot :=
  { x with framePos := if x.sigRecord.isSome then signalPosition x.framePos result else x.framePos }

/-- The MER estimate of a frame end in HOLD: a new one, but for a frame end at the moment of the entry to HOLD with the
entry taken first, which makes none and keeps the earlier value (R94). -/
def Slot.holdMer (pointPower errorPower : Nat) (x : Slot) : FrameOrder → Option Nat
  | .rebuildFirst => some (merOf pointPower errorPower)
  | .wordFirst => some (merOf pointPower errorPower)
  | .exitFirst => x.mer

/-- A signalling frame end (R41, R93, R94). -/
def State.frameEnd (s : State) (n : SlotId) (result : WordResult) (milliHz : Int) (arrivals : List Arrival)
    (pointPower errorPower : Nat) (order : FrameOrder) : State :=
  let x := (s.slot n).followCarrier milliHz
  let t := s.setSlot n x
  match x.acq with
  | .signal => (s.setSlot n (x.advanceInSignal result)).signalResult n result
  | .window => s.setSlot n (x.advanceFrame result)
  | .fecWait => s.setSlot n (x.advanceFrame result)
  | .track => t.trackFrame n result arrivals pointPower errorPower order
  | .hold => s.setSlot n { x.advanceFrame result with mer := x.holdMer pointPower errorPower order }
  | .off => s
  | .sense => s
  | .sync => s
  | .backoff => s

/-! ## WINDOW (R47, R66, R72 to R76) -/

/-- The build ends: ECHO_SPREAD is tested and the first trial begins, or the attempt fails on an empty table
(R66, R72). -/
def State.echoBuild (s : State) (n : SlotId) (arrivals : List Arrival) : State :=
  let x := (s.slot n).build arrivals
  if x.candidates = [] then (s.setSlot n { x with trialTimer := none }).failAttempt n .windowFail
  else (s.setSlot n x).latchIf x.topSpreads (.echoSpread n)

/-- Whether a trial of the list stands in a state. -/
def Slot.trialIn (x : Slot) (t : TrialState) : Bool := x.candidates.any fun c => c.trial == t

/-- The running trial passes to another state. -/
def moveTrial (from_ to_ : TrialState) (cs : List Candidate) : List Candidate :=
  cs.map fun c => if c.trial = from_ then { c with trial := to_ } else c

/-- The count half begins (R74). -/
def Slot.endSettle (x : Slot) : Slot :=
  { x with candidates := moveTrial .settling .counting x.candidates, trialTimer := some x.halfDwell }

/-- Pilot errors added to the running count (R75). -/
def addPilotErrors (k : Nat) (cs : List Candidate) : List Candidate :=
  cs.map fun c => if c.trial = .counting then { c with errors := min (c.errors + k) Config.count16Max } else c

/-- A symbol ends within the count half; the symbol in progress at the trial's start is excluded (R74, R75). -/
def Slot.countSymbol (pilotErrors : Nat) (begunBeforeTrial : Bool) (x : Slot) : Slot :=
  if begunBeforeTrial then x else { x with candidates := addPilotErrors pilotErrors x.candidates }

/-- The candidate passes and becomes the window (R76). -/
def Slot.passTrial (c : Candidate) (x : Slot) : Slot :=
  { x with candidates := moveTrial .counting .passed x.candidates, window := some c.reference }.enterFecWait

/-- The candidate fails, and the next entry, if there is one, begins its trial (R76). -/
def Slot.failTrial (x : Slot) : Slot :=
  { x with
    candidates := beginTrial (moveTrial .counting .failed x.candidates)
    trialTimer := some x.halfDwell }

/-- The end of a count half (R76). -/
def State.endCount (s : State) (n : SlotId) : State :=
  match (s.slot n).candidates.find? fun c => c.trial == .counting with
  | none => s
  | some c =>
    if c.errors ≤ (s.slot n).tuning.pilotLimit then
      (s.setSlot n ((s.slot n).passTrial c)).latchIf ((s.slot n).spreads c.reference) (.echoSpread n)
    else if (s.slot n).failTrial.trialIn .settling then s.setSlot n (s.slot n).failTrial
    else (s.setSlot n (s.slot n).failTrial).failAttempt n .windowFail

/-! ## The commands -/

/-- The slot is in a state whose phase timer has run out (R34; log entry 4). -/
def Slot.ranOut (x : Slot) (a : AcqState) : Bool := x.acq == a && x.phase == .ticks 0

def execSenseMeasurementEnd (n : SlotId) (belowFs : Nat) (s : State) : Host.Outcome State Fault Refusal :=
  .next (s.whenDue ((s.slot n).ranOut .sense && !(s.slot n).senseWaiting)
    (s.setSlot n ((s.slot n).endMeasurement belowFs)))

def execSenseWaitEnd (n : SlotId) (s : State) : Host.Outcome State Fault Refusal :=
  .next (s.whenDue ((s.slot n).ranOut .sense && (s.slot n).senseWaiting) (s.setSlot n (s.slot n).endWait))

/-- A structure can be found on a pair searched, with the carrier in the pull-in range (R39). -/
def execSyncStructureFound (n : SlotId) (m : CarrierMode) (g : Guard) (milliHz : Int) (s : State) :
    Host.Outcome State Fault Refusal :=
  .next (s.whenDue ((s.slot n).acq == .sync && (s.slot n).searches m g && offsetInPullIn milliHz)
    (s.setSlot n ((s.slot n).findStructure m g milliHz)))

def execSyncTimeout (n : SlotId) (s : State) : Host.Outcome State Fault Refusal :=
  .next (s.whenDue ((s.slot n).ranOut .sync) (s.failAttempt n .syncTimeout))

def execSignallingFrameEnd (n : SlotId) (result : WordResult) (milliHz : Int) (arrivals : List Arrival)
    (pointPower errorPower : Nat) (order : FrameOrder) (s : State) : Host.Outcome State Fault Refusal :=
  .next (s.whenDue (s.slot n).acq.demodulates
    (s.frameEnd n result milliHz arrivals pointPower errorPower order))

/-- The sixth word result, a bad one, brings the timer to 0 (R45; log entry 10). -/
def execSignalTimeout (n : SlotId) (s : State) : Host.Outcome State Fault Refusal :=
  .next (s.whenDue ((s.slot n).acq == .signal && decide (framesLeft (s.slot n).phase ≤ 1))
    (s.failAttempt n .signalTimeout))

def execWindowMoveApplied (n : SlotId) (s : State) : Host.Outcome State Fault Refusal :=
  .next (s.whenDue (s.slot n).movePending (s.setSlot n { s.slot n with movePending := false }))

def execEchoTableBuild (n : SlotId) (arrivals : List Arrival) (s : State) : Host.Outcome State Fault Refusal :=
  .next (s.whenDue ((s.slot n).acq == .window && (s.slot n).trialTimer == none) (s.echoBuild n arrivals))

def execSettleHalfEnd (n : SlotId) (s : State) : Host.Outcome State Fault Refusal :=
  .next (s.whenDue ((s.slot n).acq == .window && (s.slot n).trialTimer == some 0 && (s.slot n).trialIn .settling)
    (s.setSlot n (s.slot n).endSettle))

def execCountHalfSymbolEnd (n : SlotId) (pilotErrors : Nat) (begunBeforeTrial : Bool) (s : State) :
    Host.Outcome State Fault Refusal :=
  .next (s.whenDue ((s.slot n).acq == .window && (s.slot n).trialIn .counting)
    (s.setSlot n ((s.slot n).countSymbol pilotErrors begunBeforeTrial)))

def execCountHalfEnd (n : SlotId) (s : State) : Host.Outcome State Fault Refusal :=
  .next (s.whenDue ((s.slot n).acq == .window && (s.slot n).trialTimer == some 0 && (s.slot n).trialIn .counting)
    (s.endCount n))

def execFecTimeout (n : SlotId) (s : State) : Host.Outcome State Fault Refusal :=
  .next (s.whenDue ((s.slot n).ranOut .fecWait) (s.failAttempt n .fecTimeout))

def execHoldExpiry (n : SlotId) (s : State) : Host.Outcome State Fault Refusal :=
  .next (s.whenDue ((s.slot n).ranOut .hold) (s.expireHold n))

/-- The rest ends: attempt count 0 and the attempt start into SENSE (R52). -/
def execBackoffEnd (n : SlotId) (s : State) : Host.Outcome State Fault Refusal :=
  .next (s.whenDue ((s.slot n).ranOut .backoff)
    (s.setSlot n ({ s.slot n with attempts := 0 }.startSense false)))

end Sys2Proof.Machine
end

