-- ==== Sys2Proof/Machine/Capture.lean ====
section
/-! DEFINITION. Chapter 11, sections 11.1 to 11.4: capture contexts, the copying of packets, endings and the cells they
offer. -/

namespace Sys2Proof.Machine

open Sys2Proof

/-! ## CAPTURE_START and CAPTURE_CANCEL (R188, R192) -/

/-- The reply data of CAPTURE_START: context and state. -/
def CaptureContext.stateByte (x : CaptureContext) : Byte := captureStateCode x.state

/-- The parameters of R188's third check; n is not checked in SECTION. -/
def captureArgs (slot : Byte) (pid : BitVec 16) (mode n : Byte) : Option (SlotId × CaptureMode) :=
  match slotOf slot, captureModeOf mode with
  | some k, some m =>
    if pid.toNat ≤ 8190 ∧ (m = .sectionMode ∨ 1 ≤ n.toNat ∧ n.toNat ≤ 64) then some (k, m) else none
  | _, _ => none

/-- The context of an accepted CAPTURE_START (R188). -/
def startedCapture (l : Side) (k : SlotId) (pid : BitVec 16) (m : CaptureMode) (n : Byte) : CaptureContext :=
  { CaptureContext.initial with
    state := .active, slot := k, pid := pid.setWidth 13, mode := m, count := n.toNat, link := l }

/-- CAPTURE_START, taken from link l (R188). -/
def State.captureStart (s : State) (l : Side) (context slot : Byte) (pid : BitVec 16) (mode n : Byte) : Answer :=
  match contextOf context with
  | none => s.refuse .badArg []
  | some c =>
    if (s.capture c).state ≠ .idle then s.refuse .busy []
    else
      match captureArgs slot pid mode n with
      | none => s.refuse .badArg []
      | some (k, m) =>
        if (s.slot k).acq = .off ∨ s.poolCapacity .capture = 0 then s.refuse .badState []
        else (s.setCapture c (startedCapture l k pid m n)).accept [context, captureStateCode .active]

/-- Whether a capture runs: ACTIVE or SUSPENDED. -/
def CaptureContext.running (x : CaptureContext) : Bool := x.state == .active || x.state == .suspended

/-- The number of captured packets still pending. -/
def CaptureContext.pendingPackets (x : CaptureContext) : Nat := x.buffers.length

/-- The reply data of CAPTURE_CANCEL (R192; log entry 24). -/
def CaptureContext.cancelReport (x : CaptureContext) : List Byte := [x.stateByte] ++ beBytes 2 x.pendingPackets

/-- CAPTURE_CANCEL (R192); the data of a context that does not exist are free values (log entry 22). -/
def State.captureCancel (s : State) (context : Byte) : Answer :=
  match contextOf context with
  | none => (s.useFree 3).refuse .badArg (s.freeBytes 3)
  | some c =>
    if (s.capture c).running then
      (s.setCapture c ((s.capture c).finish .cancelled)).accept ((s.capture c).finish .cancelled).cancelReport
    else s.refuse .badState (s.capture c).cancelReport

/-! ## Copying packets (R189 to R191) -/

/-- A packet counted missed. -/
def CaptureContext.miss (x : CaptureContext) : CaptureContext := { x with missed := bump x.missed 1 }

/-- A packet captured into a granted buffer (R189). -/
def CaptureContext.take (id : BufferId) (p : Packet) (x : CaptureContext) : CaptureContext :=
  { x with
    pending := x.pending ++ [.packet id x.nextIndex p]
    nextIndex := (x.nextIndex + 1) % 65536
    captured := bump x.captured 1 }

/-- After a packet captured in COUNT or CONTINUOUS mode (R191). -/
def CaptureContext.closeRound (x : CaptureContext) : CaptureContext :=
  match x.mode with
  | .count => if x.captured = x.count then x.finish .countDone else x
  | .continuous =>
    if x.captured % x.count = 0 then
      { x with
        round := bump x.round 1
        pending := x.pending ++ [.roundEnd x.captured x.missed (bump x.round 1)] }
    else x
  | .sectionMode => x

/-- A captured packet of a section: a payload-carrying one sets the last continuity counter; the 64th ends the capture
as truncated (R190). -/
def CaptureContext.takeSection (id : BufferId) (p : Packet) (x : CaptureContext) : CaptureContext :=
  let y := { x.take id p with
    phase := .opened
    lastCc := if packetHasPayload p then some (packetCc p) else x.lastCc }
  if y.captured = 64 then { y with truncated := true }.finish .sectionDone else y

/-- A payload-carrying packet whose counter does not follow the last one (R190). -/
def CaptureContext.breaksCount (x : CaptureContext) (p : Packet) : Bool :=
  packetHasPayload p &&
    match x.lastCc with
    | some cc => packetCc p != cc + 1
    | none => false

/-- What a qualifying packet does to a context, given the buffer that the CAPTURE pool would grant (R189, R190). -/
def CaptureContext.qualify (granted : Option BufferId) (p : Packet) (x : CaptureContext) : CaptureContext :=
  match x.mode, x.phase with
  | .sectionMode, .waiting =>
    if packetError p || !packetUnitStart p then x
    else
      match granted with
      | some id => x.takeSection id p
      | none => x.finish .gap
  | .sectionMode, .opened =>
    if packetError p then x.miss.finish .gap
    else if packetUnitStart p then x.finish .sectionDone
    else if x.breaksCount p then x.miss.finish .gap
    else
      match granted with
      | some id => x.takeSection id p
      | none => x.miss.finish .gap
  | _, _ =>
    if packetError p || x.state == .suspended then x.miss
    else
      match granted with
      | some id => (x.take id p).closeRound
      | none => { x.miss with state := .suspended }

/-- One context examines a delivery (R189): the buffer it would be granted is the lowest free one of the CAPTURE pool
(R120, R122). -/
def State.examine (s : State) (n : SlotId) (p : Packet) (c : CtxId) : State :=
  if (s.capture c).watches n && packetPid p == (s.capture c).pid then
    s.setCapture c ((s.capture c).qualify (s.allocate .capture) p)
  else s

/-- Both contexts examine a delivery, one of them first (R124; log entry 28). -/
def State.examineBoth (s : State) (n : SlotId) (p : Packet) (first : CtxId) : State :=
  (s.examine n p first).examine n p (otherContext first)

/-! ## Capture output (R193, R171) -/

/-- The payload of a fragment (R171). -/
def fragmentPayload (fragment index : Nat) (p : Packet) : List Byte :=
  padTo 60 (beBytes 1 fragment ++ beBytes 2 index ++ [0] ++ (p.toList.drop (56 * fragment)).take 56)

/-- The payload of a record (R171). -/
def recordPayload (r : EndReason) (captured missed round : Nat) (truncated : Bool) : List Byte :=
  padTo 60 ([255, 0, 0, 0, endReasonCode r] ++ beBytes 4 captured ++ beBytes 4 missed ++ beBytes 4 round ++
    flagByte truncated)

/-- Whether a context offers a cell to a link (R193). -/
def CaptureContext.offers (x : CaptureContext) (l : Side) : Bool :=
  x.state != .idle && x.link == l && x.pending != []

/-- The payload of the cell offered: made from the head of the pending list (R193). -/
def CaptureContext.cell (x : CaptureContext) : List Byte :=
  match x.pending with
  | [] => padTo 60 []
  | .packet _ index p :: _ => fragmentPayload x.headFragment index p
  | .roundEnd captured missed round :: _ => recordPayload .roundEnd captured missed round false
  | .endRecord r captured missed round truncated :: _ => recordPayload r captured missed round truncated

/-- The state after a context's cell is sent (R193). -/
def State.captureSent (s : State) (c : CtxId) : State :=
  let x := s.capture c
  match x.pending with
  | [] => s
  | .packet id _ _ :: rest =>
    if x.headFragment = 3 then (s.setCapture c { x with pending := rest, headFragment := 0 }).afterFree [id]
    else s.setCapture c { x with headFragment := x.headFragment + 1 }
  | .roundEnd _ _ _ :: rest => (s.setCapture c { x with pending := rest }).latch (.captureEnd c)
  | .endRecord _ _ _ _ _ :: rest =>
    (s.setCapture c { x with pending := rest, state := .idle }).latch (.captureEnd c)

/-- The context that the arbiter serves: the one the pointer does not name, when both offer (R165). -/
def State.captureChoice (s : State) (l : Side) : Option CtxId :=
  let other := otherContext (s.link l).capturePointer
  if (s.capture other).offers l then some other
  else if (s.capture (otherContext other)).offers l then some (otherContext other)
  else none

end Sys2Proof.Machine
end

