-- ==== Sys2Proof/Machine/PacketMemory.lean ====
section
/-! DEFINITION. Chapter 7: the class rule of an egress pool, BANK_ASSIGN and BANK_READ. -/

namespace Sys2Proof.Machine

open Sys2Proof

/-- The owner whose pool an egress draws on (R136). -/
def egressOwner : Side → Owner
  | .a => .egressA
  | .b => .egressB

/-- Whether the class rule grants a request at an egress's free count (R121). -/
def classGrants (cls : PacketClass) (free reserve : Nat) : Bool :=
  match cls with
  | .ordinary => decide (reserve < free)
  | .essential => decide (1 ≤ free)

/-- The buffer that a copy attempt of a RUNNING egress is granted (R120, R121). -/
def State.grant (s : State) (e : Side) (cls : PacketClass) : Option BufferId :=
  if classGrants cls (s.poolFree (egressOwner e)) (s.egress e).reserve then s.allocate (egressOwner e) else none

/-- The owner toward which a bank drains, when it does (R118). -/
def Bank.pendingOwner (b : Bank) : Option Owner :=
  match b.state with
  | .active => none
  | .draining o => some o

/-- A bank record of 2 bytes (R174). Bits 3–2 of the first are not listed there: that they read 0 is the model's choice
(DESIGN CHOICE, log entry 34). -/
def State.bankRecord (s : State) (b : Fin 8) : List Byte :=
  let k := s.banks[b]
  beBytes 1 (packBits [(2, ownerCode k.owner), (2, ownerCode (k.pendingOwner.getD .none)), (2, 0),
    (1, k.pendingOwner.isSome.toNat), (1, k.pendingOwner.isSome.toNat)]) ++ beBytes 1 (s.bankFree b)

/-- A bank takes a new record. -/
def State.setBank (s : State) (b : Fin 8) (k : Bank) : State := { s with banks := s.banks.set b k }

/-- BANK_ASSIGN on a bank by its record, the conditions in the order of R125; a change of the Bank Map may end a
suspension (R189). -/
def State.assignBank (s : State) (b : Fin 8) (o : Owner) : Status × State :=
  match s.banks[b].state with
  | .draining _ => (.busy, s)
  | .active =>
    if s.banks[b].owner = o then (.ok, s)
    else if s.bankHeld b = 0 then (.ok, (s.setBank b ⟨o, .active⟩).resumeCaptures)
    else (.ok, s.setBank b ⟨s.banks[b].owner, .draining o⟩)

/-- BANK_ASSIGN (R125). The record of a bank that does not exist is a free value (log entry 22). -/
def State.bankAssign (s : State) (bank owner : Byte) : Answer :=
  match bankOf bank with
  | none => (s.useFree 2).refuse .badArg (bank :: s.freeBytes 2)
  | some b =>
    match ownerOf owner with
    | none => s.refuse .badArg (bank :: s.bankRecord b)
    | some o => (s.assignBank b o).2.refuse (s.assignBank b o).1 (bank :: (s.assignBank b o).2.bankRecord b)

/-- Capacity, free count and holding of an owner (R129). -/
def State.poolBytes (s : State) (o : Owner) : List Byte :=
  beBytes 2 (s.poolCapacity o) ++ beBytes 2 (s.poolFree o) ++ beBytes 2 (s.poolHolding o)

/-- BANK_READ (R129). -/
def State.bankRead (s : State) : Answer :=
  s.accept (allBanks.flatMap s.bankRecord ++ s.poolBytes .egressA ++ s.poolBytes .egressB ++ s.poolBytes .capture)

end Sys2Proof.Machine
end

