-- ==== Sys2Proof/Machine/Routing.lean ====
section
/-! DEFINITION. Chapter 6: the Route Table, its four requests and the routing of a delivered packet. -/

namespace Sys2Proof.Machine

open Sys2Proof

/-! ## The table (R97, R99, R100) -/

/-- The entry at an index. -/
def State.route (s : State) (i : Nat) : RouteEntry := Memory.read RouteEntry.initial s.routes i

def State.setRoute (s : State) (i : Nat) (e : RouteEntry) : State :=
  { s with routes := Memory.write RouteEntry.initial s.routes i e }

/-- The indices 0 to 255. -/
def routeIndices : List Nat := List.range Config.routeEntries

/-- A valid entry with a key, the key's parts given as numbers (R97, R106). -/
def RouteEntry.hasKey (e : RouteEntry) (slot pid : Nat) : Bool :=
  e.valid && decide (e.slot.val = slot) && decide (e.pid.toNat = pid)

/-- The index of the valid entry with a key (R100). -/
def State.lookup (s : State) (slot pid : Nat) : Option Nat := routeIndices.find? fun i => (s.route i).hasKey slot pid

/-- Whether an entry's egress set names an egress. -/
def RouteEntry.sends (e : RouteEntry) : Side → Bool
  | .a => e.toA
  | .b => e.toB

/-- The effective output PID for an egress (R97). -/
def RouteEntry.outPid (e : RouteEntry) : Side → Pid
  | .a => e.outA.getD e.pid
  | .b => e.outB.getD e.pid

/-- A valid entry delivers to the pair (egress, PID) (R97). -/
def RouteEntry.delivers (e : RouteEntry) (side : Side) (pid : Pid) : Bool :=
  e.valid && e.sends side && e.outPid side == pid

/-- The entry but the excluded one that delivers to the same pair as e does on an egress (R104). -/
def State.collision (s : State) (excluded : Option Nat) (e : RouteEntry) (side : Side) : Option Nat :=
  if e.sends side then
    routeIndices.find? fun i => decide (some i ≠ excluded) && (s.route i).delivers side (e.outPid side)
  else none

/-! ## ROUTE_ADD (R101 to R105) -/

/-- ABSENT is carried as 0xFFFF (R169). -/
def absentPid : BitVec 16 := 0xFFFF

/-- An output PID as carried. -/
def outPidOf (p : BitVec 16) : Option Pid := if p = absentPid then none else some (p.setWidth 13)

/-- A present output PID above 8190 (R102). -/
def outPidBad (p : BitVec 16) : Bool := decide (p ≠ absentPid ∧ 8190 < p.toNat)

/-- The seven items of R102 in order: whether each fails. -/
def descFaults (d : RouteDesc) : List Bool :=
  [(slotOf d.slot).isNone,
   decide (8190 < d.pid.toNat),
   decide (d.egressSet.toNat = 0 ∨ 3 < d.egressSet.toNat),
   decide (d.outA ≠ absentPid) && !d.egressSet.getLsbD 0 || decide (d.outB ≠ absentPid) && !d.egressSet.getLsbD 1,
   outPidBad d.outA || outPidBad d.outB,
   (classOf d.cls).isNone,
   (flagOf d.replace).isNone || (flagOf d.correct).isNone || (flagOf d.renumber).isNone]

/-- The number of the first failing item, counted from k. -/
def firstFault : Nat → List Bool → Option Nat
  | _, [] => none
  | k, b :: bs => if b then some k else firstFault (k + 1) bs

/-- The entry that a description writes (R103, R104). -/
def entryOf (d : RouteDesc) : RouteEntry where
  valid := true
  slot := (slotOf d.slot).getD 0
  pid := d.pid.setWidth 13
  toA := d.egressSet.getLsbD 0
  toB := d.egressSet.getLsbD 1
  outA := outPidOf d.outA
  outB := outPidOf d.outB
  cls := (classOf d.cls).getD .ordinary
  correct := d.correct == 1
  renumber := d.renumber == 1
  hits := 0
  drops := 0

/-- The result of one description or key (R105, R106). -/
structure RouteResult where
  status : Status
  index : Nat
  detail : Byte

/-- A description past the key check: collision, then its place (R103, R104). -/
def State.placeRoute (s : State) (own : Option Nat) (e : RouteEntry) : State × RouteResult :=
  match s.collision own e .a with
  | some i => (s, ⟨.conflict, i, 1⟩)
  | none =>
    match s.collision own e .b with
    | some i => (s, ⟨.conflict, i, 2⟩)
    | none =>
      match own with
      | some i => (s.setRoute i e, ⟨.ok, i, 1⟩)
      | none =>
        match routeIndices.find? fun i => !(s.route i).valid with
        | some i => (s.setRoute i e, ⟨.ok, i, 0⟩)
        | none => (s, ⟨.full, 0, 0⟩)

/-- One description (R102 to R104). -/
def State.addRoute (s : State) (d : RouteDesc) : State × RouteResult :=
  match firstFault 1 (descFaults d) with
  | some k => (s, ⟨.badArg, 0, BitVec.ofNat 8 k⟩)
  | none =>
    match s.lookup d.slot.toNat d.pid.toNat with
    | some i => if d.replace = 1 then s.placeRoute (some i) (entryOf d) else (s, ⟨.conflict, i, 0⟩)
    | none => s.placeRoute none (entryOf d)

/-- Descriptions in order, each seeing what the ones before it did. -/
def State.addRoutes : List RouteDesc → State → State × List RouteResult
  | [], s => (s, [])
  | d :: ds, s =>
    ((State.addRoutes ds (s.addRoute d).1).1, (s.addRoute d).2 :: (State.addRoutes ds (s.addRoute d).1).2)

/-- OK when every result is OK, else the first other status (R101, R106). -/
def worstStatus : List RouteResult → Status
  | [] => .ok
  | r :: rs => if r.status = .ok then worstStatus rs else r.status

def addResultBytes (r : RouteResult) : List Byte := [statusCode r.status] ++ beBytes 1 r.index ++ [r.detail]

/-- ROUTE_ADD (R101, R105). -/
def State.routeAdd (s : State) (count : Byte) (d0 d1 d2 : RouteDesc) : Answer :=
  if 1 ≤ count.toNat ∧ count.toNat ≤ 3 then
    let r := s.addRoutes ([d0, d1, d2].take count.toNat)
    r.1.refuse (worstStatus r.2) (r.2.flatMap addResultBytes)
  else s.refuse .badArg []

/-! ## ROUTE_REMOVE, ROUTE_CLEAR, ROUTE_READ (R106 to R108) -/

/-- An entry made invalid keeps its other fields (R97). -/
def RouteEntry.invalidate (e : RouteEntry) : RouteEntry := { e with valid := false }

/-- One key (R106). -/
def State.removeRoute (s : State) (k : RouteKey) : State × RouteResult :=
  match s.lookup k.slot.toNat k.pid.toNat with
  | some i => (s.setRoute i (s.route i).invalidate, ⟨.ok, i, 0⟩)
  | none => (s, ⟨.notFound, 0, 0⟩)

def State.removeRoutes : List RouteKey → State → State × List RouteResult
  | [], s => (s, [])
  | k :: ks, s =>
    ((State.removeRoutes ks (s.removeRoute k).1).1,
      (s.removeRoute k).2 :: (State.removeRoutes ks (s.removeRoute k).1).2)

def removeResultBytes (r : RouteResult) : List Byte := [statusCode r.status] ++ beBytes 1 r.index

/-- ROUTE_REMOVE (R106). -/
def State.routeRemove (s : State) (count : Byte) (keys : Vector RouteKey 8) : Answer :=
  if 1 ≤ count.toNat ∧ count.toNat ≤ 8 then
    let r := s.removeRoutes (keys.toList.take count.toNat)
    r.1.refuse (worstStatus r.2) (r.2.flatMap removeResultBytes)
  else s.refuse .badArg []

/-- Every entry made invalid; an entry that then equals the power-on entry is no longer listed (R107, log entry 18). -/
def clearRoutes (m : List (Nat × RouteEntry)) : List (Nat × RouteEntry) :=
  (m.map fun p => (p.1, p.2.invalidate)).filter fun p => decide (p.2 ≠ RouteEntry.initial)

/-- The number of valid entries (R107). -/
def State.validRoutes (s : State) : Nat := routeIndices.countP fun i => (s.route i).valid

/-- ROUTE_CLEAR (R107). -/
def State.routeClear (s : State) : Answer :=
  ({ s with routes := clearRoutes s.routes } : State).accept (beBytes 2 s.validRoutes)

def pidBytes (p : Option Pid) : List Byte := bytes16 ((p.map fun q => q.setWidth 16).getD absentPid)

/-- An entry record of 17 bytes (R174). Bits 3–2 of byte 1 are not listed there: that they read 0 is the model's choice
(DESIGN CHOICE, log entry 34). -/
def entryBytes (i : Nat) (e : RouteEntry) : List Byte :=
  beBytes 1 i ++
    beBytes 1 (packBits [(1, e.valid.toNat), (1, (e.cls == .essential).toNat), (1, e.correct.toNat),
      (1, e.renumber.toNat), (2, 0), (1, e.toB.toNat), (1, e.toA.toNat)]) ++
    beBytes 2 (packBits [(3, e.slot.val), (13, e.pid.toNat)]) ++ pidBytes e.outA ++ pidBytes e.outB ++
    beBytes 4 e.hits ++ beBytes 4 e.drops ++ [0]

/-- The indices that ROUTE_READ returns: three from the start, stopping at 255 (R108). -/
def readIndices (start : Byte) : List Nat := ((List.range 3).map fun k => start.toNat + k).filter (· < Config.routeEntries)

/-- ROUTE_READ (R108). -/
def State.routeRead (s : State) (start : Byte) : Answer :=
  s.accept (beBytes 1 (readIndices start).length ++ (readIndices start).flatMap fun i => entryBytes i (s.route i))

/-! ## Routing a delivered packet (R109 to R113) -/

/-- A change of a slot's quality counters. -/
def State.countSlot (s : State) (n : SlotId) (f : SlotCounters → SlotCounters) : State :=
  s.setSlot n { s.slot n with counters := f (s.slot n).counters }

/-- A change of an egress's counters. -/
def State.countEgress (s : State) (e : Side) (f : EgressCounters → EgressCounters) : State :=
  s.setEgress e { s.egress e with counters := f (s.egress e).counters }

/-- The counter that a drop raises, by class (R112). -/
def EgressCounters.countDrop (cls : PacketClass) (c : EgressCounters) : EgressCounters :=
  match cls with
  | .ordinary => { c with ordinaryDrops := bump c.ordinaryDrops 1 }
  | .essential => { c with essentialDrops := bump c.essentialDrops 1 }

/-- A drop at an egress (R112). -/
def State.dropCopy (s : State) (i : Nat) (e : Side) : State :=
  ((s.setRoute i { s.route i with drops := bump (s.route i).drops 1 }).countEgress e
    (EgressCounters.countDrop (s.route i).cls)).latch (.dropping e)

/-- The buffer that the Router writes (R113). -/
def routedBuffer (id : BufferId) (entry : RouteEntry) (e : Side) (n : SlotId) (stamp : Stamp) (p : Packet) : Buffer where
  id := id
  slot := n
  arrival := stamp
  cls := entry.cls
  correct := entry.correct
  renumber := entry.renumber
  packet := packetSetPid p (entry.outPid e)

/-- A buffer joins the tail of its slot's sub-queue (R130). -/
def Egress.enqueue (b : Buffer) (x : Egress) : Egress :=
  { x with queues := x.queues.set b.slot (x.queues[b.slot] ++ [b]) }

/-- One copy attempt through entry i for an egress (R110 to R113). -/
def State.copyAttempt (s : State) (i : Nat) (n : SlotId) (stamp : Stamp) (p : Packet) (e : Side) : State :=
  if (s.route i).sends e then
    if (s.egress e).run = .running then
      match s.grant e (s.route i).cls with
      | some id => s.setEgress e ((s.egress e).enqueue (routedBuffer id (s.route i) e n stamp p))
      | none => s.dropCopy i e
    else s.countEgress e fun c => { c with stoppedDiscards := bump c.stoppedDiscards 1 }
  else s

/-- The hits counter of the entry found (R110). -/
def State.hit (s : State) (i : Nat) : State := s.setRoute i { s.route i with hits := bump (s.route i).hits 1 }

/-- The Router's handling of a delivered packet (R109, R110). -/
def State.routePacket (s : State) (n : SlotId) (stamp : Stamp) (p : Packet) : State :=
  if packetPid p = nullPid then s.countSlot n fun c => { c with nulls := bump c.nulls 1 }
  else
    match s.lookup n.val (packetPid p).toNat with
    | none => s.countSlot n fun c => { c with unrouted := bump c.unrouted 1 }
    | some i => ((s.hit i).copyAttempt i n stamp p .a).copyAttempt i n stamp p .b

end Sys2Proof.Machine
end

