-- ==== Sys2Proof/Machine/Decoding.lean ====
section
/-! DEFINITION. Chapter 5: the outcome of a completed packet, the run counts, the states' handling of it, and
delivery. -/

namespace Sys2Proof.Machine

open Sys2Proof

/-- The outcome after the sync byte has been examined (R84): a packet whose sync byte is wrong is uncorrectable. -/
def outcomeOf (report : DecoderReport) (p : Packet) : DecoderReport :=
  if packetSyncRight p then report else .uncorrectable

/-- Whether a packet is uncorrectable. -/
def isUncorrectable : DecoderReport → Bool
  | .clean => false
  | .corrected _ => false
  | .uncorrectable => true

/-- Counters of CORRECTED and UNCORRECTABLE packets, in TRACK and HOLD alike (R88, R90). -/
def SlotCounters.countOutcome (o : DecoderReport) (c : SlotCounters) : SlotCounters :=
  match o with
  | .clean => c
  | .corrected k => { c with corrected := bump c.corrected 1, bytesCorrected := bump c.bytesCorrected k }
  | .uncorrectable => { c with uncorrectable := bump c.uncorrectable 1 }

/-- The sync run in FEC_WAIT (R86, R87). -/
def Slot.runSync (p : Packet) (x : Slot) : Slot :=
  { x with syncRun := if packetSyncRight p then x.syncRun + 1 else 0 }

/-- A packet completed in FEC_WAIT (R87, R48). -/
def State.completeFecWait (s : State) (n : SlotId) (p : Packet) : State :=
  let x := (s.slot n).runSync p
  s.setSlot n (if x.syncRun = 4 then x.enterTrack else x)

/-- Counts and runs of a packet in TRACK (R86, R88). -/
def Slot.runTrack (o : DecoderReport) (p : Packet) (x : Slot) : Slot :=
  { x with
    counters := x.counters.countOutcome o
    uncRun := if isUncorrectable o then x.uncRun + 1 else 0
    wrongRun := if packetSyncRight p then 0 else x.wrongRun + 1 }

/-- The conditions of R89 on the runs. -/
def Slot.holds (x : Slot) : Bool := decide (x.tuning.burstLimit ≤ x.uncRun ∨ 4 ≤ x.wrongRun)

/-- The packet that R88 hands to delivery, when it hands one. -/
def Slot.handsOn (o : DecoderReport) (p : Packet) (x : Slot) : Option Packet :=
  if packetSyncRight p then
    match o with
    | .clean => some p
    | .corrected _ => some p
    | .uncorrectable =>
      match x.tuning.policy with
      | .mark => some (packetMark p)
      | .drop => none
  else none

/-- Delivery: stamped with the STC, counted, and handed to the Router and to the Capture Unit (R91). -/
def State.deliver (s : State) (n : SlotId) (p : Packet) (first : CtxId) : State :=
  ((s.countSlot n fun c => { c with delivered := bump c.delivered 1 }).routePacket n s.time.stc p).examineBoth n p first

/-- The slot's counts when a condition of R89 withholds the packet. One that the table of R88 marks as delivered remains
counted as R88 states, by R89, while R91 and R95 count deliveries alone: whether it raises packets delivered is a free value
(DESIGN CHOICE, log entry 33). -/
def Slot.withhold (o : DecoderReport) (p : Packet) (x : Slot) : Slot :=
  if (x.handsOn o p).isSome && Config.countsWithheld then
    { x with counters := { x.counters with delivered := bump x.counters.delivered 1 } }
  else x

/-- A packet completed in TRACK (R88, R89). The packet that completes a condition of R89 is not delivered. -/
def State.completeTrack (s : State) (n : SlotId) (o : DecoderReport) (p : Packet) (first : CtxId) : State :=
  let x := (s.slot n).runTrack o p
  let t := s.setSlot n x
  if x.holds then (s.setSlot n (x.withhold o p)).enterHold n
  else
    match x.handsOn o p with
    | some q => t.deliver n q first
    | none => t

/-- The good run in HOLD (R86, R90). -/
def Slot.runGood (o : DecoderReport) (x : Slot) : Slot :=
  { x with
    counters := x.counters.countOutcome o
    goodRun := if isUncorrectable o then 0 else x.goodRun + 1 }

/-- A packet completed in HOLD (R90, R54). -/
def State.completeHold (s : State) (n : SlotId) (o : DecoderReport) : State :=
  let x := (s.slot n).runGood o
  s.setSlot n (if x.goodRun = 4 then x.enterTrack else x)

/-- A completed packet by the slot's state (R85). -/
def State.complete (s : State) (n : SlotId) (o : DecoderReport) (p : Packet) (first : CtxId) : State :=
  match (s.slot n).acq with
  | .fecWait => s.completeFecWait n p
  | .track => s.completeTrack n o p first
  | .hold => s.completeHold n o
  | .off => s
  | .sense => s
  | .sync => s
  | .signal => s
  | .window => s
  | .backoff => s

/-- Whether the outer decoder runs (R85). -/
def AcqState.decodes : AcqState → Bool
  | .fecWait => true
  | .track => true
  | .hold => true
  | .off => false
  | .sense => false
  | .sync => false
  | .signal => false
  | .window => false
  | .backoff => false

def execPacketCompletion (n : SlotId) (report : DecoderReport) (p : Packet) (first : CtxId) (s : State) :
    Host.Outcome State Fault Refusal :=
  .next (s.whenDue (s.slot n).acq.decodes (s.complete n (outcomeOf report p) p first))

end Sys2Proof.Machine
end

