-- ==== Sys2Proof/Machine/Egress.lean ====
section
/-! DEFINITION. Chapter 8: egress settings, START and STOP, the due slot with its stale test, renumbering, correction and
packing, and EGRESS_READ. -/

namespace Sys2Proof.Machine

open Sys2Proof

/-! ## EGRESS_SET (R137 to R139) -/

/-- Whether a setting, numbered from 1 in the order of R137, is marked present. -/
def settingHas (p : EgressSetParams) (k : Nat) : Bool := p.present.getLsbD (k - 1)

def rateInRange (r : BitVec 32) : Bool := decide (r = 0 ∨ 2000000 ≤ r.toNat ∧ r.toNat ≤ 72000000)

def ageInRange (a : BitVec 16) : Bool := decide (1 ≤ a.toNat ∧ a.toNat ≤ 1000)

/-- The first failing setting of the second check (R138); a reserve is clamped and an offset of 24 bits is in range. -/
def badSetting (p : EgressSetParams) : Option Byte :=
  if settingHas p 1 && !rateInRange p.rate then some 1
  else if settingHas p 2 && (schedOf p.policy).isNone then some 2
  else if settingHas p 4 && !ageInRange p.ageLimit then some 4
  else none

/-- A reserve above 1024 is stored as 1024 (R138). -/
def clampReserve (q : BitVec 16) : Nat := min 1024 q.toNat

/-- The present settings written (R139). -/
def Egress.configure (p : EgressSetParams) (x : Egress) : Egress :=
  { x with
    rate := if settingHas p 1 then p.rate.toNat else x.rate
    policy := if settingHas p 2 then (schedOf p.policy).getD x.policy else x.policy
    reserve := if settingHas p 3 then clampReserve p.reserve else x.reserve
    ageLimit := if settingHas p 4 then p.ageLimit.toNat else x.ageLimit
    offset := if settingHas p 5 then p.offset.toInt else x.offset }

/-- The five settings as reply data. -/
def Egress.settings (x : Egress) : List Byte :=
  beBytes 4 x.rate ++ [schedCode x.policy] ++ beBytes 2 x.reserve ++ beBytes 2 x.ageLimit ++ beSigned 3 x.offset

/-- A changed rate needs a STOPPED egress (R138). -/
def Egress.rateBusy (p : EgressSetParams) (x : Egress) : Bool :=
  settingHas p 1 && decide (p.rate.toNat ≠ x.rate) && x.run != .stopped

/-- Whether the reserve was clamped (R139). -/
def reserveClamped (p : EgressSetParams) : Bool := settingHas p 3 && decide (1024 < p.reserve.toNat)

/-- EGRESS_SET (R138, R139). -/
def State.egressSet (s : State) (p : EgressSetParams) : Answer :=
  match sideOf p.egress with
  | none => s.refuse .badArg [0]
  | some e =>
    if 32 ≤ p.present.toNat then s.refuse .badArg [0]
    else
      match badSetting p with
      | some k => s.refuse .badArg [k]
      | none =>
        if (s.egress e).rateBusy p then s.refuse .busy [1]
        else
          let x := (s.egress e).configure p
          (s.setEgress e x).accept (x.settings ++ [egressStateCode x.run] ++ flagByte (reserveClamped p))

/-! ## START and STOP (R140 to R143) -/

/-- What a START sets (R140). -/
def Egress.begin (x : Egress) : Egress :=
  { x with acc := 0, continuity := [], pointer := 5, assembly := Assembly.empty, run := .running }

/-- START by the egress state (R140). -/
def State.startEgress (s : State) (e : Side) : Status × State :=
  match (s.egress e).run with
  | .running => (.badState, s)
  | .stopping => (.busy, s)
  | .stopped =>
    if (s.egress e).rate = 0 ∨ s.poolCapacity (egressOwner e) = 0 then (.badState, s)
    else (.ok, s.setEgress e (s.egress e).begin)

/-- A payload filled up to 60 bytes with 0xFF (R141). -/
def fillPayload (bytes : List Byte) : List Byte := bytes ++ List.replicate (60 - bytes.length) 0xFF

/-- The newest cell of a transmit buffer is marked END. -/
def markLast : List StreamCell → List StreamCell
  | [] => []
  | [c] => [{ c with isEnd := true }]
  | c :: d :: cs => c :: markLast (d :: cs)

/-- The end of a stream (R141, step 3). -/
def Egress.endStream (x : Egress) : Egress :=
  if x.assembly.bytes = [] then
    if x.txBuffer = [] then { x with txBuffer := [⟨fillPayload [], Config.noStart, true⟩] }
    else { x with txBuffer := markLast x.txBuffer }
  else if x.txBuffer.length < Config.txDepth then
    { x with
      txBuffer := x.txBuffer ++ [⟨fillPayload x.assembly.bytes, x.assembly.startOffset, true⟩]
      assembly := Assembly.empty }
  else { x with assembly := ⟨fillPayload x.assembly.bytes, x.assembly.startOffset, true⟩ }

/-- A STOP's effect on the egress alone: the pacer stops, the sub-queues are emptied, the stream is ended (R141). -/
def Egress.stop (x : Egress) : Egress :=
  { x.endStream with run := .stopping, dueStamps := [], queues := Vector.replicate 6 [] }

/-- A STOP of a RUNNING egress, with the frees of its buffers (R131, R141); in another state it changes nothing. -/
def State.stopEgress (s : State) (e : Side) : State :=
  if (s.egress e).run = .running then (s.setEgress e (s.egress e).stop).afterFree (s.egress e).buffers else s

/-- EGRESS_CONTROL; the state of an egress that does not exist is a free value (R140, log entry 22). -/
def State.egressControl (s : State) (egress action : Byte) : Answer :=
  match sideOf egress with
  | none => (s.useFree 1).refuse .badArg (s.freeBytes 1)
  | some e =>
    if action = actionStart then
      (s.startEgress e).2.refuse (s.startEgress e).1 [egressStateCode ((s.startEgress e).2.egress e).run]
    else if action = actionStop then
      (s.stopEgress e).accept [egressStateCode ((s.stopEgress e).egress e).run]
    else s.refuse .badArg [egressStateCode (s.egress e).run]

/-! ## The pacer (R144) -/

/-- One tick of the pacer; a due slot keeps its departure stamp until it is taken (R144, log entry 9). -/
def Egress.pace (stc : Stamp) (x : Egress) : Egress :=
  if x.run = .running then
    if Config.pacerThreshold ≤ x.acc + x.rate then
      { x with acc := x.acc + x.rate - Config.pacerThreshold, dueStamps := x.dueStamps ++ [stc] }
    else { x with acc := x.acc + x.rate }
  else x

/-! ## Selection and the stale test (R146, R147) -/

/-- The order in which sub-queues are examined (R146). -/
def Egress.order (x : Egress) : List SlotId :=
  match x.policy with
  | .rotating => allSlots.map fun k => x.pointer + 1 + k
  | .fixed => allSlots

/-- The sub-queue served, with its head buffer and the rest behind it (R146). -/
def Egress.select (x : Egress) : Option (SlotId × Buffer × List Buffer) :=
  x.order.findSome? fun n =>
    match x.queues[n] with
    | [] => none
    | b :: rest => some (n, b, rest)

/-- The residence modulo 2^32 (R147). -/
def residence (td ta : Stamp) : Nat := (td - ta).toNat

/-- Above the age limit is stale (R147). -/
def Egress.stale (x : Egress) (td : Stamp) (b : Buffer) : Bool := decide (ms x.ageLimit < residence td b.arrival)

/-- The head buffer leaves a sub-queue, and the pointer names the slot served. -/
def Egress.serve (n : SlotId) (rest : List Buffer) (x : Egress) : Egress :=
  { x with pointer := n, queues := x.queues.set n rest }

/-! ## Renumbering (R149) -/

/-- The Continuity Table entry of a PID. -/
def Egress.continuityAt (x : Egress) (pid : Pid) : BitVec 4 := Memory.read 0 x.continuity pid.toNat

/-- The packet that a due slot processes after renumbering. -/
def Egress.renumbered (x : Egress) (b : Buffer) : Packet :=
  if b.renumber then
    packetSetCc b.packet
      (if packetHasPayload b.packet then x.continuityAt (packetPid b.packet)
       else x.continuityAt (packetPid b.packet) + 15)
  else b.packet

/-- The Continuity Table after renumbering: a payload-carrying packet advances its entry. -/
def Egress.renumberTable (b : Buffer) (x : Egress) : Egress :=
  if b.renumber && packetHasPayload b.packet then
    { x with
      continuity := Memory.write 0 x.continuity (packetPid b.packet).toNat
        (x.continuityAt (packetPid b.packet) + 1) }
  else x

/-! ## Clock reference correction (R150, R151) -/

/-- The conditions of R150 on a buffer and its packet. -/
def corrects (b : Buffer) : Bool := b.correct && !packetError b.packet && packetHasClockRef b.packet

/-- The value of a clock reference (R151). -/
def clockValue (p : Packet) : Int := ((packetClockBase p).toNat * 300 + (packetClockExt p).toNat : Nat)

/-- One addition or subtraction of the modulus (R151). -/
def wrapClock (v : Int) : Int :=
  if v < 0 then v + Config.clockModulus else if v < Config.clockModulus then v else v - Config.clockModulus

/-- The packet with its clock reference advanced by the residence and the offset (R151). -/
def correctPacket (d : Nat) (offset : Int) (p : Packet) : Packet :=
  let v := (wrapClock (clockValue p + d + offset)).toNat
  packetSetClock p (BitVec.ofNat 33 (v / 300)) (BitVec.ofNat 9 (v % 300))

/-- The packet that leaves: renumbered, then corrected (R145, steps 3 and 4). -/
def Egress.outgoing (x : Egress) (td : Stamp) (b : Buffer) : Packet :=
  if corrects b then correctPacket (residence td b.arrival) x.offset (x.renumbered b) else x.renumbered b

/-! ## Cell assembly (R152) -/

/-- One byte written at the fill; a full cell moves to the transmit buffer (log entry 19). -/
def Egress.packByte (x : Egress) (b : Byte) : Egress :=
  if x.assembly.bytes.length + 1 = 60 then
    { x with
      txBuffer := x.txBuffer ++ [⟨x.assembly.bytes ++ [b], x.assembly.startOffset, false⟩]
      assembly := Assembly.empty }
  else { x with assembly := { x.assembly with bytes := x.assembly.bytes ++ [b] } }

/-- The packet's first byte fixes the start offset of a cell in which none starts yet. -/
def Egress.markStart (x : Egress) : Egress :=
  if x.assembly.startOffset = Config.noStart then
    { x with assembly := { x.assembly with startOffset := BitVec.ofNat 8 x.assembly.bytes.length } }
  else x

/-- A packet's 188 bytes appended. -/
def Egress.appendPacket (p : Packet) (x : Egress) : Egress := p.toList.foldl Egress.packByte x.markStart

/-! ## The due slot (R145, R148, R154) -/

/-- A null packet appended (R148). -/
def Egress.sendNull (x : Egress) : Egress :=
  let y := x.appendPacket nullPacket
  { y with counters := { y.counters with nulls := bump y.counters.nulls 1 } }

/-- A fresh buffer's packet processed and appended (R145, steps 3 to 5). -/
def Egress.sendBuffer (td : Stamp) (b : Buffer) (x : Egress) : Egress :=
  let y := (x.renumberTable b).appendPacket (x.outgoing td b)
  { y with
    counters := { y.counters with
      sent := bump y.counters.sent 1
      corrections := bump y.counters.corrections (corrects b).toNat } }

/-- A stale discard's count (R147). -/
def Egress.countStale (x : Egress) : Egress :=
  { x with counters := { x.counters with stale := bump x.counters.stale 1 } }

/-- The due slot with at most `fuel` stale discards: selection, stale test, then one packet (R145). -/
def State.dueSlot (td : Stamp) (e : Side) : Nat → State → State
  | 0, s => s.setEgress e (s.egress e).sendNull
  | fuel + 1, s =>
    match (s.egress e).select with
    | none => s.setEgress e (s.egress e).sendNull
    | some (n, b, rest) =>
      if (s.egress e).stale td b then
        State.dueSlot td e fuel
          (((s.setEgress e ((s.egress e).serve n rest).countStale).latch (.stale e)).afterFree [b.id])
      else (s.setEgress e (((s.egress e).serve n rest).sendBuffer td b)).afterFree [b.id]

/-- The number of queued buffers, which bounds the stale discards of one due slot. -/
def Egress.queued (x : Egress) : Nat := (allSlots.map fun n => x.queues[n].length).sum

/-- A due slot taken: the oldest outstanding one, with its departure stamp (log entry 9). -/
def State.takeDue (s : State) (e : Side) : State :=
  match (s.egress e).dueStamps with
  | [] => s
  | td :: rest =>
    State.dueSlot td e (s.egress e).queued (s.setEgress e { s.egress e with dueStamps := rest })

def execDueSlot (e : Side) (s : State) : Host.Outcome State Fault Refusal :=
  .next (s.whenDue ((s.egress e).run == .running && (s.egress e).dueStamps != []) (s.takeDue e))

/-! ## A cell leaves (R142) -/

/-- What follows the oldest cell's departure: a waiting END cell moves in, and a STOPPING egress with nothing left
enters STOPPED. -/
def Egress.settleStop (x : Egress) : Egress :=
  let y := if x.assembly.isEnd then
    { x with
      txBuffer := x.txBuffer ++ [⟨x.assembly.bytes, x.assembly.startOffset, true⟩]
      assembly := Assembly.empty }
    else x
  if y.run = .stopping ∧ y.txBuffer = [] ∧ y.assembly.bytes = [] then { y with run := .stopped } else y

/-- The oldest cell has left the transmit buffer. -/
def Egress.afterCell (rest : List StreamCell) (x : Egress) : Egress := { x with txBuffer := rest }.settleStop

/-! ## EGRESS_READ (R156, R174) -/

/-- Page 0. While a complete END cell waits, the fill is a free value of 0 to 59 (log entry 22). -/
def State.settingsPage (s : State) (x : Egress) : List Byte :=
  x.settings ++ [egressStateCode x.run] ++ beBytes 5 x.acc ++ beBytes 1 x.pointer.val ++
    (if x.assembly.isEnd then (s.freeBytes 1).map fun b => b % 60 else beBytes 1 x.assembly.bytes.length) ++
    [x.assembly.startOffset] ++ beBytes 1 x.txBuffer.length ++ flagByte x.assembly.isEnd

/-- The arrival stamp of a sub-queue's head, 0 when empty. -/
def headStamp : List Buffer → Stamp
  | [] => 0
  | b :: _ => b.arrival

/-- Page 1. -/
def State.queuePage (s : State) (e : Side) : List Byte :=
  (allSlots.flatMap fun n => beBytes 2 (s.egress e).queues[n].length ++ bytes32 (headStamp (s.egress e).queues[n])) ++
    s.poolBytes (egressOwner e)

/-- The seven counters in the order of R136. -/
def EgressCounters.list (c : EgressCounters) : List Nat :=
  [c.sent, c.nulls, c.ordinaryDrops, c.essentialDrops, c.stale, c.stoppedDiscards, c.corrections]

/-- Entries two to a byte, the lower PID in the upper half (R174). -/
def nibblePairs : List (BitVec 4) → List Byte
  | [] => []
  | [a] => [a ++ (0 : BitVec 4)]
  | a :: b :: rest => (a ++ b) :: nibblePairs rest

/-- The entries of up to 96 PIDs from a start PID, stopping at 8191 (R156). -/
def Egress.continuityFrom (x : Egress) (pid : Nat) : List (BitVec 4) :=
  (List.range (min 96 (8192 - pid))).map fun k => Memory.read 0 x.continuity (pid + k)

/-- Page 3. -/
def Egress.continuityPage (x : Egress) (pid : BitVec 16) : List Byte :=
  bytes16 pid ++ beBytes 1 (x.continuityFrom pid.toNat).length ++ nibblePairs (x.continuityFrom pid.toNat)

/-- EGRESS_READ; every reply begins with the egress and page bytes (R156, R174; log entries 22, 23, 25). -/
def State.egressRead (s : State) (egress page : Byte) (pid : BitVec 16) : Answer :=
  match sideOf egress with
  | none => s.refuse .badArg [egress, page]
  | some e =>
    if page = 0 then
      (if (s.egress e).assembly.isEnd then s.useFree 1 else s).accept ([egress, page] ++ s.settingsPage (s.egress e))
    else if page = 1 then s.accept ([egress, page] ++ s.queuePage e)
    else if page = 2 then s.accept ([egress, page] ++ (s.egress e).counters.list.flatMap (beBytes 4))
    else if page = 3 ∧ pid.toNat < 8192 then s.accept ([egress, page] ++ (s.egress e).continuityPage pid)
    else s.refuse .badArg [egress, page]

end Sys2Proof.Machine
end

