-- ==== Sys2Proof/Machine/Slots.lean ====
section
/-! DEFINITION. Chapter 2: SLOT_SET with its checks, SLOT_CONTROL slot by slot, and the five pages of SLOT_READ. -/

namespace Sys2Proof.Machine

open Sys2Proof

/-! ## SLOT_SET (R17, R18, R22 to R25) -/

/-- Whether a field of R17, numbered from 1, is marked present (R169: bit 0 is the first). -/
def setHas (p : SlotSetParams) (field : Nat) : Bool := p.present.getLsbD (field - 1)

/-- The three fields that are clamped (R18). -/
def clampThreshold (b : Byte) : Int := max (-60) (min 0 b.toInt)

def clampCapture (b : Byte) : Nat := max 2 (min 128 b.toNat)

def clampHold (h : BitVec 16) : Nat := min 2000 h.toNat

/-- A frequency is UNSET or 174,000 to 862,000 kHz (R22). -/
def frequencyOk (f : BitVec 24) : Bool := decide (f = 0 ∨ 174000 ≤ f.toNat ∧ f.toNat ≤ 862000)

/-- UNSET is carried as 0 (R169). -/
def frequencyOf (f : BitVec 24) : Option Nat := if f = 0 then none else some f.toNat

/-- The value check of each field, in the order of R17 (R22). -/
def setValueChecks (p : SlotSetParams) : List Bool :=
  [(rfOf p.input).isSome,
   frequencyOk p.frequency,
   (bandwidthOf p.bandwidth).isSome,
   (modeOf p.mode).isSome,
   (guardOf p.guardFraction).isSome,
   (constellationOf p.constellation).isSome,
   (rateOf p.rate).isSome,
   (flagOf p.cellPresent).isSome,
   true,
   decide (2 ≤ p.dwell.toNat ∧ p.dwell.toNat ≤ 64 ∧ p.dwell.toNat % 2 = 0),
   decide (1 ≤ p.pilotLimit.toNat),
   decide (1 ≤ p.candidateLimit.toNat ∧ p.candidateLimit.toNat ≤ 4),
   true,
   true,
   decide (1 ≤ p.burstLimit.toNat),
   (policyOf p.policy).isSome]

/-- The number of the first present field whose check fails; fields are numbered from k. -/
def setFirstBad (p : SlotSetParams) : Nat → List Bool → Option Nat
  | _, [] => none
  | k, ok :: oks => if setHas p k && !ok then some k else setFirstBad p (k + 1) oks

/-- The failing check and field of R22, when one fails. -/
def setBadShape (p : SlotSetParams) : Option (List Byte) :=
  if !maskOk p.mask then some [1, 0]
  else if decide (1 < (maskSlots p.mask).length) && (setHas p 1 || setHas p 2) then some [2, 0]
  else (setFirstBad p 1 (setValueChecks p)).map fun k => [3, BitVec.ofNat 8 k]

/-- The programmed record with the present fields written, with their clamps (R25). -/
def setWrite (p : SlotSetParams) (r : TuningRecord) : TuningRecord where
  input := if setHas p 1 then (rfOf p.input).getD r.input else r.input
  frequency := if setHas p 2 then frequencyOf p.frequency else r.frequency
  bandwidth := if setHas p 3 then (bandwidthOf p.bandwidth).getD r.bandwidth else r.bandwidth
  mode := if setHas p 4 then (modeOf p.mode).getD r.mode else r.mode
  guardFraction := if setHas p 5 then (guardOf p.guardFraction).getD r.guardFraction else r.guardFraction
  constellation := if setHas p 6 then (constellationOf p.constellation).getD r.constellation else r.constellation
  rate := if setHas p 7 then (rateOf p.rate).getD r.rate else r.rate
  cellId := if setHas p 8 then (if p.cellPresent = 0 then none else some p.cellId) else r.cellId
  threshold := if setHas p 9 then clampThreshold p.threshold else r.threshold
  dwell := if setHas p 10 then p.dwell.toNat else r.dwell
  pilotLimit := if setHas p 11 then p.pilotLimit.toNat else r.pilotLimit
  candidateLimit := if setHas p 12 then p.candidateLimit.toNat else r.candidateLimit
  captureThreshold := if setHas p 13 then clampCapture p.captureThreshold else r.captureThreshold
  holdMs := if setHas p 14 then clampHold p.holdMs else r.holdMs
  burstLimit := if setHas p 15 then p.burstLimit.toNat else r.burstLimit
  policy := if setHas p 16 then (policyOf p.policy).getD r.policy else r.policy

/-- The pair of a record: absent when the frequency is UNSET (R21). -/
def TuningRecord.pair (r : TuningRecord) : Option (RfId × Nat) := r.frequency.map fun f => (r.input, f)

/-- An enabled slot is in any state but OFF (R16). -/
def Slot.enabled (x : Slot) : Bool := x.acq != .off

/-- The pair that a slot claims through its programmed record (R21). -/
def Slot.programmedClaim (x : Slot) : Option (RfId × Nat) := x.programmed.pair

/-- The pair that a slot claims through its active record while enabled (R21). -/
def Slot.activeClaim (x : Slot) : Option (RfId × Nat) := if x.enabled then x.active.bind TuningRecord.pair else none

/-- What the reply names when another slot holds a resulting pair (R24). -/
def conflictWith (n m : SlotId) (pair : RfId × Nat) (other : Slot) : Option (List Byte) :=
  if n = m then none
  else if other.programmedClaim = some pair then some [BitVec.ofNat 8 n.val, BitVec.ofNat 8 m.val, 0]
  else if other.activeClaim = some pair then some [BitVec.ofNat 8 n.val, BitVec.ofNat 8 m.val, 1]
  else none

/-- The conflict of one slot of the mask (R24; log entry 27). -/
def State.slotConflict (s : State) (p : SlotSetParams) (n : SlotId) : Option (List Byte) :=
  match (setWrite p (s.slot n).programmed).pair with
  | none => none
  | some pair => allSlots.findSome? fun m => conflictWith n m pair (s.slot m)

/-- The first conflict of a SLOT_SET (R24; log entry 27). -/
def State.setConflict (s : State) (p : SlotSetParams) : Option (List Byte) :=
  (maskSlots p.mask).findSome? (s.slotConflict p)

/-- The slot at which a SLOT_SET would take the frequency from an enabled slot (R23). -/
def State.setUnsets (s : State) (p : SlotSetParams) : Option SlotId :=
  if setHas p 2 && p.frequency == 0 then (maskSlots p.mask).find? fun n => (s.slot n).enabled else none

/-- The fields that a SLOT_SET clamps (R18). -/
def setClampsThreshold (p : SlotSetParams) : Bool := setHas p 9 && clampThreshold p.threshold != p.threshold.toInt

def setClampsCapture (p : SlotSetParams) : Bool :=
  setHas p 13 && clampCapture p.captureThreshold != p.captureThreshold.toNat

def setClampsHold (p : SlotSetParams) : Bool := setHas p 14 && clampHold p.holdMs != p.holdMs.toNat

/-- The reply data of an accepted SLOT_SET: the clamp set, then the stored value of each clamped field or 0 (R25,
R169). -/
def setClampReport (p : SlotSetParams) : List Byte :=
  beBytes 2 (256 * (setClampsThreshold p).toNat + 4096 * (setClampsCapture p).toNat + 8192 * (setClampsHold p).toNat) ++
    beSigned 1 (if setClampsThreshold p then clampThreshold p.threshold else 0) ++
    beBytes 1 (if setClampsCapture p then clampCapture p.captureThreshold else 0) ++
    beBytes 2 (if setClampsHold p then clampHold p.holdMs else 0)

/-- One slot of the mask takes the present fields (R25). -/
def State.program (p : SlotSetParams) (s : State) (n : SlotId) : State :=
  s.setSlot n { s.slot n with programmed := setWrite p (s.slot n).programmed }

/-- SLOT_SET (R22 to R25). -/
def State.slotSet (s : State) (p : SlotSetParams) : Answer :=
  match setBadShape p with
  | some data => s.refuse .badArg data
  | none =>
    match s.setUnsets p with
    | some n => s.refuse .badState [BitVec.ofNat 8 n.val]
    | none =>
      match s.setConflict p with
      | some data => s.refuse .conflict data
      | none => ((maskSlots p.mask).foldl (State.program p) s).accept (setClampReport p)

/-! ## SLOT_CONTROL (R26 to R29) -/

/-- Another enabled slot receives the pair (R27). -/
def State.pairReceived (s : State) (n : SlotId) (pair : RfId × Nat) : Bool :=
  allSlots.any fun m => decide (m ≠ n) && (s.slot m).activeClaim == some pair

/-- An ENABLE that starts a slot (R27). -/
def Slot.enable (x : Slot) : Slot :=
  { x with attempts := 0, backoff := 1, lastFailure := .none }.startSense false

/-- ENABLE at one slot (R27): the status there and the state after it. -/
def State.enableSlot (s : State) (n : SlotId) : Status × State :=
  if (s.slot n).enabled then (.ok, s)
  else
    match (s.slot n).programmedClaim with
    | none => (.badState, s)
    | some pair => if s.pairReceived n pair then (.conflict, s) else (.ok, s.setSlot n (s.slot n).enable)

/-- DISABLE at one slot (R28, R192). -/
def State.disableSlot (s : State) (n : SlotId) : Status × State :=
  if (s.slot n).enabled then (.ok, (s.setSlot n (s.slot n).toOff).endCaptures n) else (.ok, s)

/-- The fresh attempt of a RETUNE (R29). -/
def Slot.freshAttempt (x : Slot) : Slot := { x with attempts := 0, lastFailure := .none }.startSense false

/-- RETUNE at one slot; an exit from TRACK ends the captures of the slot (R29, R56). -/
def State.retuneSlot (s : State) (n : SlotId) : Status × State :=
  if (s.slot n).enabled then
    (.ok, if (s.slot n).acq = .track then (s.setSlot n (s.slot n).freshAttempt).endCaptures n
      else s.setSlot n (s.slot n).freshAttempt)
  else (.badState, s)

/-- The slots of a mask acted on in order up to the first failure (R26): the status, the slots acted on and the failing
slot or 255. -/
def State.controlSlots (act : State → SlotId → Status × State) (acted : Byte) : List SlotId → State → Answer
  | [], s => s.accept [acted, 255]
  | n :: ns, s =>
    match act s n with
    | (.ok, t) => t.controlSlots act (acted ||| slotBit n) ns
    | (status, _) => s.refuse status [acted, BitVec.ofNat 8 n.val]

/-- SLOT_CONTROL (R26). -/
def State.slotControl (s : State) (mask action : Byte) : Answer :=
  if !maskOk mask then s.refuse .badArg [0, 255]
  else if action = actionEnable then s.controlSlots State.enableSlot 0 (maskSlots mask)
  else if action = actionDisable then s.controlSlots State.disableSlot 0 (maskSlots mask)
  else if action = actionRetune then s.controlSlots State.retuneSlot 0 (maskSlots mask)
  else s.refuse .badArg [0, 255]

/-! ## SLOT_READ (R31, R62, R83, R96; R169, R173, R174) -/

/-- The sixteen fields of a record in the order of R17. -/
def TuningRecord.bytes (r : TuningRecord) : List Byte :=
  [rfCode r.input] ++ beBytes 3 (r.frequency.getD 0) ++
    [bandwidthCode r.bandwidth, autoCode modeCode r.mode, autoCode guardCode r.guardFraction,
     autoCode constellationCode r.constellation, autoCode rateCode r.rate] ++
    optBytes 2 bytes16 r.cellId ++ beSigned 1 r.threshold ++ beBytes 1 r.dwell ++ beBytes 1 r.pilotLimit ++
    beBytes 1 r.candidateLimit ++ beBytes 1 r.captureThreshold ++ beBytes 2 r.holdMs ++ beBytes 1 r.burstLimit ++
    [policyCode r.policy]

/-- Page 1: the active record and the difference flag (R31). -/
def Slot.activePage (x : Slot) : List Byte :=
  match x.active with
  | none => List.replicate 23 0
  | some r => [1] ++ r.bytes ++ flagByte (r != x.programmed)

/-- The seven fields of a signalling word (R173). -/
def SigWord.bytes (w : SigWord) : List Byte :=
  [modeCode w.mode, guardCode w.guardFraction, constellationCode w.constellation, rateCode w.rate] ++
    bytes16 w.cellId ++ [w.frameIndex.setWidth 8] ++ flagByte w.announced

/-- The detected structure of page 2. -/
def Structure.bytes (d : Structure) : List Byte := [modeCode d.mode, guardCode d.guardFraction]

/-- NONE, MEASURING or WAITING (R62, R173). -/
def Slot.sensePhase (x : Slot) : Byte := if x.acq = .sense then (if x.senseWaiting then 2 else 1) else 0

/-- The phase timer as page 2 shows it (R62). -/
def PhaseTimer.shown : PhaseTimer → Nat
  | .stopped => 0
  | .ticks left => msLeft left
  | .frames left => left

/-- Page 2 (R62). -/
def Slot.statusPage (x : Slot) : List Byte :=
  flagByte x.noSignal ++ [x.sensePhase] ++ beBytes 1 x.attempts ++ beBytes 1 x.backoff ++ beBytes 2 x.phase.shown ++
    [failureCode x.lastFailure] ++ optBytes 2 Structure.bytes x.detected ++ optBytes 8 SigWord.bytes x.sigRecord ++
    [x.framePos.setWidth 8] ++ optBytes 8 SigWord.bytes x.halfMade ++ flagByte x.changePending

/-- The list position of the running trial in WINDOW, counted from k (R83). -/
def trialPosition : Nat → List Candidate → Nat
  | _, [] => 0
  | k, c :: cs => if c.trial = .settling ∨ c.trial = .counting then k else trialPosition (k + 1) cs

def Slot.trialInProgress (x : Slot) : Nat := if x.acq = .window then trialPosition 1 x.candidates else 0

/-- A packed path record of 24 bits (R174). -/
def Slot.pathFields (x : Slot) (p : EchoPath) : List (Nat × Nat) :=
  [(13, signedBits 13 p.delay), (9, p.power), (1, (x.eligible p).toNat), (1, 0)]

/-- A packed candidate record of 44 bits (R174). -/
def candidateFields (c : Candidate) : List (Nat × Nat) :=
  [(13, signedBits 13 c.reference), (12, c.energy), (3, trialCode c.trial), (16, c.errors)]

/-- Items packed in k records of w bits each; records beyond the items read as zero. -/
def packRecords {α : Type} (k w : Nat) (fields : α → List (Nat × Nat)) (items : List α) : List Byte :=
  beBytes (k * w / 8)
    (packBits ((items.take k).flatMap fields ++ List.replicate (k - items.length) (w, 0)))

/-- Page 3, packed (R83, R174). Bit 3 of the second byte is not listed there: that it reads 0 is the model's choice
(DESIGN CHOICE, log entry 34). -/
def Slot.echoPage (x : Slot) : List Byte :=
  beBytes 1 (packBits [(4, x.echo.length), (1, 0), (1, x.window.isSome.toNat), (1, x.movePending.toNat),
      (1, x.windowSpreads.toNat)]) ++
    beBytes 1 (packBits [(4, x.candidates.length), (4, x.trialInProgress)]) ++
    beBytes 3 (packBits [(12, x.total), (12, (x.window.map x.captured).getD 0)]) ++
    beSigned 2 x.mainShift ++ beSigned 2 (x.window.getD 0) ++
    packRecords 8 24 x.pathFields x.echo ++ packRecords 4 44 candidateFields x.candidates

/-- The eight counters in the order of R95. -/
def SlotCounters.list (c : SlotCounters) : List Nat :=
  [c.delivered, c.corrected, c.bytesCorrected, c.uncorrectable, c.lockLosses, c.acqFailures, c.nulls, c.unrouted]

/-- Page 4 (R96). -/
def Slot.qualityPage (x : Slot) : List Byte :=
  optBytes 2 (beSigned 2) x.channelPower ++ optBytes 3 (beSigned 3) x.freqOffset ++ optBytes 2 (beBytes 2) x.mer ++
    beBytes 1 x.syncRun ++ beBytes 1 x.uncRun ++ beBytes 1 x.wrongRun ++ beBytes 1 x.goodRun ++
    x.counters.list.flatMap (beBytes 4)

/-- A page's contents after its first byte; none above page 4 (R31). -/
def Slot.page (x : Slot) (page : Byte) : Option (List Byte) :=
  if page = 0 then some x.programmed.bytes
  else if page = 1 then some x.activePage
  else if page = 2 then some x.statusPage
  else if page = 3 then some x.echoPage
  else if page = 4 then some x.qualityPage
  else none

/-- The first byte of every page: slot number and acquisition state (R173). -/
def pageHead (n : SlotId) (x : Slot) : Byte := BitVec.ofNat 8 (16 * n.val) ||| acqCode x.acq

/-- SLOT_READ (R31). -/
def State.slotRead (s : State) (slot page : Byte) : Answer :=
  match slotOf slot with
  | none => s.refuse .badArg []
  | some n =>
    match (s.slot n).page page with
    | none => s.refuse .badArg []
    | some data => s.accept (pageHead n (s.slot n) :: data)

end Sys2Proof.Machine
end

