-- ==== Sys2Proof/Machine/Statistics.lean ====
section
/-! DEFINITION. Chapter 11, sections 11.6 to 11.8: STATUS and ALERT_CONFIG, the live counters and the snapshot. -/

namespace Sys2Proof.Machine

open Sys2Proof

/-- ALERT_CONFIG (R196). -/
def State.alertConfig (s : State) (enable : BitVec 48) (alertA alertB : Byte) : Answer :=
  match flagOf alertA, flagOf alertB with
  | some a, some b =>
    ({ s with events := configureEvents (eventSetOf enable) a b s.events } : State).accept
      (eventBytes (eventSetOf enable) ++ flagByte a ++ flagByte b)
  | _, _ => s.refuse .badArg []

/-- What STATUS reads before it clears (R197). -/
def statusReport (u : EventUnit) : List Byte :=
  eventBytes u.latched ++ eventBytes u.enabled ++ [summaryRecord u] ++ flagByte u.alertA ++ flagByte u.alertB

/-- STATUS (R197). -/
def State.status (s : State) (clear : BitVec 48) : Answer :=
  ({ s with events := clearEvents (eventSetOf clear) s.events } : State).accept (statusReport s.events)

/-- The three counters of a link in the numbering of R198. -/
def LinkCounters.list (c : LinkCounters) : List Nat := [c.headerErrors, c.unknownCells, c.requestDiscards]

/-- The 68 live counters in the numbering of R198. -/
def State.liveCounters (s : State) : List Nat :=
  (allSlots.flatMap fun n => (s.slot n).counters.list) ++ s.egressA.counters.list ++ s.egressB.counters.list ++
    s.linkA.counters.list ++ s.linkB.counters.list

/-- Every live counter zeroed (R198). -/
def State.zeroCounters (s : State) : State :=
  { s with
    slots := s.slots.map fun x => { x with counters := SlotCounters.zero }
    egressA := { s.egressA with counters := EgressCounters.zero }
    egressB := { s.egressB with counters := EgressCounters.zero }
    linkA := { s.linkA with counters := LinkCounters.zero }
    linkB := { s.linkB with counters := LinkCounters.zero } }

/-- The snapshot taken (R198). -/
def State.takeSnapshot (s : State) : State := { s with snapshot := ⟨s.liveCounters, true⟩ }

/-- STATS_SNAPSHOT (R198). -/
def State.statsSnapshot (s : State) (clear : Byte) : Answer :=
  match flagOf clear with
  | none => s.refuse .badArg []
  | some c => (if c then s.takeSnapshot.zeroCounters else s.takeSnapshot).accept []

/-- STATS_READ (R198). -/
def State.statsRead (s : State) (page : Byte) : Answer :=
  if 4 < page.toNat then s.refuse .badArg []
  else if s.snapshot.valid then
    s.accept (((s.snapshot.bank.drop (14 * page.toNat)).take 14).flatMap (beBytes 4))
  else s.refuse .badState []

end Sys2Proof.Machine
end

