-- ==== Sys2Proof/Machine/Agent.lean ====
section
/-! DEFINITION. Chapter 10: the Management Agent's queues, the taking and applying of requests, DESCRIBE and the
datapath reset. -/

namespace Sys2Proof.Machine

open Sys2Proof

/-! ## DESCRIBE and RESET (R184, R185) -/

/-- DESCRIBE, taken from link l (R184; log entry 24). -/
def State.describe (s : State) (l : Side) : Answer :=
  s.accept (beBytes 2 6142 ++ [1, 6, 2, 2] ++ beBytes 2 256 ++ [8, 128, 2] ++ [sideCode l, refCode s.time.reference])

/-- A slot after the datapath reset (R33). -/
def Slot.datapathReset (x : Slot) : Slot := { x.toOff with lastFailure := .none }

/-- A context after the datapath reset (R187). -/
def CaptureContext.datapathReset (x : CaptureContext) : CaptureContext :=
  { x with state := .idle, pending := [], headFragment := 0 }

/-- Slots in OFF and captures IDLE (R33, R187). -/
def State.quiet (s : State) : State :=
  { s with
    slots := s.slots.map Slot.datapathReset
    capture0 := s.capture0.datapathReset
    capture1 := s.capture1.datapathReset }

/-- The drain test on every bank (R135). -/
def State.drainAll (s : State) : State := allBanks.foldl State.drainTest s

/-- Events cleared with the alert cells that they made pending, and the snapshot invalid (R194, R195, R198). -/
def State.clearRecords (s : State) : State :=
  { s with
    events := { s.events with latched := 0, pendingA := false, pendingB := false }
    snapshot := { s.snapshot with valid := false } }

/-- The datapath reset (R185). -/
def State.datapathReset (s : State) : State :=
  ((s.quiet.stopEgress .a).stopEgress .b).drainAll.zeroCounters.clearRecords

/-! ## Applying a request (R181, R182) -/

/-- What the owning rule gives a request taken from link l. -/
def State.applyRequest (s : State) (l : Side) : Request → Answer
  | .describe => s.describe l
  | .reset => s.datapathReset.accept []
  | .status clear => s.status clear
  | .alertConfig enable a b => s.alertConfig enable a b
  | .statsSnapshot clear => s.statsSnapshot clear
  | .statsRead page => s.statsRead page
  | .frontRead => s.frontRead
  | .auxSet m0 m1 protection => s.auxSet m0 m1 protection
  | .auxWrite mask v0 v1 => s.auxWrite mask v0 v1
  | .auxRead => s.auxRead
  | .slotSet p => s.slotSet p
  | .slotControl mask action => s.slotControl mask action
  | .slotRead slot page => s.slotRead slot page
  | .routeAdd count d0 d1 d2 => s.routeAdd count d0 d1 d2
  | .routeRemove count keys => s.routeRemove count keys
  | .routeClear => s.routeClear
  | .routeRead start => s.routeRead start
  | .bankAssign bank owner => s.bankAssign bank owner
  | .bankRead => s.bankRead
  | .egressSet p => s.egressSet p
  | .egressControl egress action => s.egressControl egress action
  | .egressRead egress page pid => s.egressRead egress page pid
  | .captureStart context slot pid mode n => s.captureStart l context slot pid mode n
  | .captureCancel context => s.captureCancel context
  | .unknown _ => s.refuse .unknown []

/-- The reply to a request (R183): the summary record is taken after the request. -/
def replyTo (code tag : Byte) (a : Answer) : Reply where
  code := code
  tag := tag
  status := a.status
  summary := summaryRecord a.state.events
  data := padTo 56 a.data

/-- The reply queued, the link remembered and the service interval begun (R179). -/
def Agent.conclude (l : Side) (r : Reply) (g : Agent) : Agent :=
  { g.setReplies l (g.replies l ++ [r]) with lastServed := l, interval := some Config.cellTicks }

/-- A request taken from link l and served whole (R179, R181). -/
def State.serve (s : State) (l : Side) (tag code : Byte) (r : Request) : State :=
  let a := s.applyRequest l r
  { a.state with agent := a.state.agent.conclude l (replyTo code tag a) }

/-! ## Taking requests (R177, R179, R180) -/

/-- A link is eligible (R179). -/
def Agent.eligible (g : Agent) (l : Side) : Bool :=
  g.requests l != [] && decide ((g.replies l).length < Config.replyDepth)

/-- The link from which the Agent takes its next request (R180). -/
def Agent.choice (g : Agent) : Option Side :=
  if g.eligible (otherSide g.lastServed) then some (otherSide g.lastServed)
  else if g.eligible g.lastServed then some g.lastServed
  else none

/-- The head payload of a link's request queue taken and served. -/
def State.serveHead (s : State) (l : Side) : State :=
  match s.agent.requests l with
  | [] => s
  | p :: rest =>
    ({ s with agent := s.agent.setRequests l rest } : State).serve l (byteAt p 1) (byteAt p 0) (requestOf p)

/-- An Agent whose service interval is IDLE takes a request when a link is eligible (R179). -/
def State.agentPoll (s : State) : State :=
  match s.agent.interval with
  | some _ => s
  | none =>
    match s.agent.choice with
    | some l => s.serveHead l
    | none => s

/-- The service interval ends, and the Agent takes its next request when there is one (R179). -/
def State.endInterval (s : State) : State := ({ s with agent := { s.agent with interval := none } } : State).agentPoll

def execServiceIntervalEnd (s : State) : Host.Outcome State Fault Refusal :=
  .next (s.whenDue (s.agent.interval == some 0) s.endInterval)

/-! ## The arrival of a request (R163, R177, R179; log entry 7) -/

/-- Whether the Agent takes a request of link l at the moment it arrives (R179). -/
def Agent.ready (g : Agent) (l : Side) : Bool :=
  g.interval == none && g.requests l == [] && decide ((g.replies l).length < Config.replyDepth)

/-- A request that finds its queue full is counted, with REQ_DISCARD (R163). -/
def State.discardRequest (s : State) (l : Side) : State :=
  (s.setLink l { s.link l with
    counters := { (s.link l).counters with requestDiscards := bump (s.link l).counters.requestDiscards 1 } }).latch
    (.reqDiscard l)

/-- A request payload that link l accepts: taken at once, queued, or discarded. -/
def State.request (s : State) (l : Side) (tag code : Byte) (r : Request) (payload : List Byte) : State :=
  if s.agent.ready l then s.serve l tag code r
  else if (s.agent.requests l).length < Config.requestDepth then
    ({ s with agent := s.agent.setRequests l (s.agent.requests l ++ [payload]) } : State).agentPoll
  else s.discardRequest l

/-- A request row: the request of that name is accepted by link l in a REQUEST cell. Before PLL lock nothing is received
(R1). The row is the moment of that acceptance, so it tests neither the link's delineation nor its signal (R162, R163),
and it leaves the link's bad run as it stands: the passing header that returns the bad run to 0 (R162) is SYNC_CELL's. This
reading is the model's choice (DESIGN CHOICE, log entry 7). -/
def State.requestRow (s : State) (l : Side) (tag : Byte) (r : Request) : State :=
  s.whenLocked (s.request l tag (requestCode r) r (requestPayload tag r))

end Sys2Proof.Machine
end

