-- ==== Sys2Proof/Machine/Links.lean ====
section
/-! DEFINITION. Chapter 9: the header check, the downstream arbiter, and upstream delineation with the handling of
received cells. -/

namespace Sys2Proof.Machine

open Sys2Proof

/-! ## The header check (R158) -/

/-- One bit of the CRC-8 with the generator x^8 + x^2 + x + 1. -/
def crcShift (c : Byte) : Byte := if c.getLsbD 7 then (c <<< 1) ^^^ 0x07 else c <<< 1

/-- One byte, most significant bit first. -/
def crcByte (c b : Byte) : Byte := crcShift (crcShift (crcShift (crcShift (crcShift (crcShift (crcShift (crcShift (c ^^^ b))))))))

/-- The header check of bytes 0, 1 and 2. -/
def headerCheck (b0 b1 b2 : Byte) : Byte := crcByte (crcByte (crcByte 0 b0) b1) b2

/-- A received header passes when byte 3 is the check of bytes 0 to 2. -/
def headerPasses (b0 b1 b2 b3 : Byte) : Bool := b3 == headerCheck b0 b1 b2

/-- The same for four bytes given as one number, the first byte most significant. -/
def wordPasses (h : BitVec 32) : Bool :=
  headerPasses (h.extractLsb' 24 8) (h.extractLsb' 16 8) (h.extractLsb' 8 8) (h.extractLsb' 0 8)

/-- The kind of a cell, bits 7–4 of byte 0 (R157). -/
def cellKind (b0 : Byte) : BitVec 4 := b0.extractLsb' 4 4

/-- The kinds of R157. -/
abbrev kindIdle : BitVec 4 := 0
abbrev kindStream : BitVec 4 := 1
abbrev kindReply : BitVec 4 := 2
abbrev kindCapture : BitVec 4 := 3
abbrev kindAlert : BitVec 4 := 4
abbrev kindRequest : BitVec 4 := 8

/-! ## Sending a cell (R157, R166) -/

/-- The bytes of a cell. -/
def cellBytes (kind flags : BitVec 4) (b1 b2 : Byte) (payload : List Byte) : List Byte :=
  [kind ++ flags, b1, b2, headerCheck (kind ++ flags) b1 b2] ++ payload

/-- A non-idle cell takes the sequence number, which then advances (R166). -/
def LinkUnit.send (kind flags : BitVec 4) (b1 : Byte) (payload : List Byte) (k : LinkUnit) : LinkUnit :=
  { k with line := cellBytes kind flags b1 k.seq payload, seq := k.seq + 1 }

/-- An idle cell has every byte 0 (R157). -/
def LinkUnit.sendIdle (k : LinkUnit) : LinkUnit := { k with line := List.replicate 64 0 }

def State.send (s : State) (l : Side) (kind flags : BitVec 4) (b1 : Byte) (payload : List Byte) : State :=
  s.setLink l ((s.link l).send kind flags b1 payload)

/-! ## The arbiter (R164, R165) -/

/-- The END mark is bit 0 of the flags (R157, R168). -/
def StreamCell.flags (c : StreamCell) : BitVec 4 := if c.isEnd then 1 else 0

/-- Whether a link has a pending alert cell (R195). -/
def EventUnit.alertPending (u : EventUnit) : Side → Bool
  | .a => u.pendingA
  | .b => u.pendingB

/-- A link's alert cell stops being pending (R195). -/
def EventUnit.alertSent (u : EventUnit) : Side → EventUnit
  | .a => { u with pendingA := false }
  | .b => { u with pendingB := false }

/-- The payload of an alert cell: summary record and latched flags (R171, R195). -/
def alertPayload (u : EventUnit) : List Byte := padTo 60 (summaryRecord u :: eventBytes u.latched)

/-- The payload of a reply cell (R170). -/
def replyPayload (r : Reply) : List Byte := [r.code, r.tag, statusCode r.status, r.summary] ++ r.data

/-- A stream cell is sent (R142, R168). -/
def State.sendStream (s : State) (l : Side) (c : StreamCell) (rest : List StreamCell) : State :=
  (s.setEgress l ((s.egress l).afterCell rest)).send l kindStream c.flags c.startOffset c.payload

/-- The pending alert cell is sent (R195). -/
def State.sendAlert (s : State) (l : Side) : State :=
  ({ s with events := s.events.alertSent l } : State).send l kindAlert 0 0 (alertPayload s.events)

/-- The head of the reply queue is sent; a link that regains room may be served at once (R178, R179). -/
def State.sendReply (s : State) (l : Side) (r : Reply) (rest : List Reply) : State :=
  (({ s with agent := s.agent.setReplies l rest } : State).send l kindReply 0 r.tag (replyPayload r)).agentPoll

/-- The byte that names a context (R157). -/
def contextByte : CtxId → Byte
  | .c0 => 0
  | .c1 => 1

/-- A capture cell is sent, and the pointer is set to the context served (R165, R193). -/
def State.sendCapture (s : State) (l : Side) (c : CtxId) : State :=
  ((s.setLink l { s.link l with capturePointer := c }).send l kindCapture 0 (contextByte c) (s.capture c).cell).captureSent c

/-- No cell waits (R164, step 5). -/
def State.sendIdle (s : State) (l : Side) : State := s.setLink l (s.link l).sendIdle

/-- The choice of R164 and the sending of the chosen cell. -/
def State.arbitrate (s : State) (l : Side) : State :=
  match (s.egress l).txBuffer with
  | c :: rest => s.sendStream l c rest
  | [] =>
    if s.events.alertPending l then s.sendAlert l
    else
      match s.agent.replies l with
      | r :: rest => s.sendReply l r rest
      | [] =>
        match s.captureChoice l with
        | some c => s.sendCapture l c
        | none => s.sendIdle l

/-- The start of a cell position is taken. -/
def State.beginPosition (s : State) (l : Side) : State := s.setLink l { s.link l with positionDue := false }

def execCellPosition (l : Side) (s : State) : Host.Outcome State Fault Refusal :=
  .next (s.whenDue (s.link l).positionDue ((s.beginPosition l).arbitrate l))

/-! ## Upstream delineation (R160 to R162) -/

/-- The first passing window fixes the boundary (R160). -/
def LinkUnit.foundHeader (k : LinkUnit) : LinkUnit := { k with delin := .presync, boundary := true, goodRun := 0 }

/-- A passing header in PRESYNC (R161). -/
def LinkUnit.presyncPass (k : LinkUnit) : LinkUnit :=
  if k.goodRun + 1 = 5 then { k with goodRun := 5, delin := .sync, badRun := 0 } else { k with goodRun := k.goodRun + 1 }

/-- The return from PRESYNC to HUNT (R161). -/
def LinkUnit.presyncFail (k : LinkUnit) : LinkUnit := { k with delin := .hunt, boundary := false, goodRun := 0 }

/-- The counting of a failing header in SYNC, LINK_DOWN apart (R162). -/
def LinkUnit.countFailure (k : LinkUnit) : LinkUnit :=
  let j := { k with counters := { k.counters with headerErrors := bump k.counters.headerErrors 1 } }
  if k.badRun + 1 = 4 then { j with delin := .hunt, boundary := false, badRun := 0, lossTicks := 0, lossDue := 0 }
  else { j with badRun := k.badRun + 1 }

/-- A failing header in SYNC (R162). -/
def State.failHeader (s : State) (l : Side) : State :=
  (s.setLink l (s.link l).countFailure).latchIf (decide ((s.link l).badRun + 1 = 4)) (.linkDown l)

/-- The link receives bytes in a state: its signal is present (R159). -/
def LinkUnit.receives (k : LinkUnit) (d : Delineation) : Bool := k.signal && k.delin == d

/-- In HUNT a window that fails its check causes nothing (R160). -/
def execHuntWindow (l : Side) (header : BitVec 32) (s : State) : Host.Outcome State Fault Refusal :=
  .next (s.whenDue ((s.link l).receives .hunt && wordPasses header) (s.setLink l (s.link l).foundHeader))

def execPresyncHeader (l : Side) (header : BitVec 32) (s : State) : Host.Outcome State Fault Refusal :=
  .next (s.whenDue ((s.link l).receives .presync)
    (s.setLink l (if wordPasses header then (s.link l).presyncPass else (s.link l).presyncFail)))

/-! ## Received cells in SYNC (R162, R163) -/

/-- A passing header returns the bad run to 0 (R162). -/
def LinkUnit.passed (k : LinkUnit) : LinkUnit := { k with badRun := 0 }

/-- A cell of an unknown kind (R163). -/
def LinkUnit.countUnknown (k : LinkUnit) : LinkUnit :=
  { k with counters := { k.counters with unknownCells := bump k.counters.unknownCells 1 } }

/-- The payload of a cell. -/
def cellPayload (cell : CellBytes) : List Byte := cell.toList.drop 4

/-- A passing cell by its kind (R163). -/
def State.handleCell (s : State) (l : Side) (cell : CellBytes) : State :=
  if cellKind cell[0] = kindRequest then
    s.request l (byteAt (cellPayload cell) 1) (byteAt (cellPayload cell) 0) (requestOf (cellPayload cell))
      (cellPayload cell)
  else if cellKind cell[0] = kindIdle then s
  else s.setLink l (s.link l).countUnknown

/-- A cell at the boundary in SYNC (R162). -/
def State.syncCell (s : State) (l : Side) (cell : CellBytes) : State :=
  if headerPasses cell[0] cell[1] cell[2] cell[3] then (s.setLink l (s.link l).passed).handleCell l cell
  else s.failHeader l

def execSyncCell (l : Side) (cell : CellBytes) (s : State) : Host.Outcome State Fault Refusal :=
  .next (s.whenDue ((s.link l).receives .sync) (s.syncCell l cell))

/-! ## Loss and return of the incoming signal (R159, R161, R162) -/

/-- The receiver reports the loss; PRESYNC returns to HUNT (R161). -/
def LinkUnit.loseSignal (k : LinkUnit) : LinkUnit :=
  let j := { k with signal := false, lossTicks := 0 }
  if k.delin = .presync then j.presyncFail else j

/-- The incoming signal is outside the part: its loss is seen whether or not the PLL has locked (log entry 6). -/
def execLossOfSignal (l : Side) (s : State) : Host.Outcome State Fault Refusal :=
  .next (if (s.link l).signal then s.setLink l (s.link l).loseSignal else s)

def execLossFailureCount (l : Side) (s : State) : Host.Outcome State Fault Refusal :=
  .next (s.whenDue ((s.link l).delin == .sync && decide (0 < (s.link l).lossDue))
    ((s.setLink l { s.link l with lossDue := (s.link l).lossDue - 1 }).failHeader l))

/-- The receiver reports the return; a remainder shorter than 64 ticks counts nothing (R162). -/
def LinkUnit.regainSignal (k : LinkUnit) : LinkUnit := { k with signal := true, lossTicks := 0 }

def execSignalReturn (l : Side) (s : State) : Host.Outcome State Fault Refusal :=
  .next (s.setLink l (s.link l).regainSignal)

end Sys2Proof.Machine
end

