-- ==== Sys2Proof/Machine/Requests.lean ====
section
/-! DEFINITION. The meanings of the request rows: each is the arrival of that request on a link (log entry 7). -/

namespace Sys2Proof.Machine

open Sys2Proof

def execFrontRead (l : Side) (tag : Byte) (s : State) : Host.Outcome State Fault Refusal :=
  .next (s.requestRow l tag .frontRead)

def execAuxSet (l : Side) (tag mode0 mode1 protection : Byte) (s : State) : Host.Outcome State Fault Refusal :=
  .next (s.requestRow l tag (.auxSet mode0 mode1 protection))

def execAuxWrite (l : Side) (tag mask value0 value1 : Byte) (s : State) : Host.Outcome State Fault Refusal :=
  .next (s.requestRow l tag (.auxWrite mask value0 value1))

def execAuxRead (l : Side) (tag : Byte) (s : State) : Host.Outcome State Fault Refusal :=
  .next (s.requestRow l tag .auxRead)

def execSlotSet (l : Side) (tag : Byte) (p : SlotSetParams) (s : State) : Host.Outcome State Fault Refusal :=
  .next (s.requestRow l tag (.slotSet p))

/-- ENABLE, DISABLE and RETUNE are the actions of SLOT_CONTROL (R26). -/
def execEnable (l : Side) (tag mask : Byte) (s : State) : Host.Outcome State Fault Refusal :=
  .next (s.requestRow l tag (.slotControl mask actionEnable))

def execDisable (l : Side) (tag mask : Byte) (s : State) : Host.Outcome State Fault Refusal :=
  .next (s.requestRow l tag (.slotControl mask actionDisable))

def execRetune (l : Side) (tag mask : Byte) (s : State) : Host.Outcome State Fault Refusal :=
  .next (s.requestRow l tag (.slotControl mask actionRetune))

def execSlotRead (l : Side) (tag slot page : Byte) (s : State) : Host.Outcome State Fault Refusal :=
  .next (s.requestRow l tag (.slotRead slot page))

def execRouteAdd (l : Side) (tag count : Byte) (d0 d1 d2 : RouteDesc) (s : State) :
    Host.Outcome State Fault Refusal :=
  .next (s.requestRow l tag (.routeAdd count d0 d1 d2))

def execRouteRemove (l : Side) (tag count : Byte) (keys : Vector RouteKey 8) (s : State) :
    Host.Outcome State Fault Refusal :=
  .next (s.requestRow l tag (.routeRemove count keys))

def execRouteClear (l : Side) (tag : Byte) (s : State) : Host.Outcome State Fault Refusal :=
  .next (s.requestRow l tag .routeClear)

def execRouteRead (l : Side) (tag start : Byte) (s : State) : Host.Outcome State Fault Refusal :=
  .next (s.requestRow l tag (.routeRead start))

def execBankAssign (l : Side) (tag bank owner : Byte) (s : State) : Host.Outcome State Fault Refusal :=
  .next (s.requestRow l tag (.bankAssign bank owner))

def execBankRead (l : Side) (tag : Byte) (s : State) : Host.Outcome State Fault Refusal :=
  .next (s.requestRow l tag .bankRead)

def execEgressSet (l : Side) (tag : Byte) (p : EgressSetParams) (s : State) : Host.Outcome State Fault Refusal :=
  .next (s.requestRow l tag (.egressSet p))

/-- START and STOP are the actions of EGRESS_CONTROL (R140). -/
def execStart (l : Side) (tag egress : Byte) (s : State) : Host.Outcome State Fault Refusal :=
  .next (s.requestRow l tag (.egressControl egress actionStart))

def execStop (l : Side) (tag egress : Byte) (s : State) : Host.Outcome State Fault Refusal :=
  .next (s.requestRow l tag (.egressControl egress actionStop))

def execEgressRead (l : Side) (tag egress page : Byte) (pid : BitVec 16) (s : State) :
    Host.Outcome State Fault Refusal :=
  .next (s.requestRow l tag (.egressRead egress page pid))

/-- A request of any code. A code that R170 lists is the request of that name with every parameter byte 0, so the row's
own case is a code that is not listed (log entry 7). -/
def execUnknownRequest (l : Side) (tag code : Byte) (s : State) : Host.Outcome State Fault Refusal :=
  .next (s.whenLocked
    (s.request l tag code (requestOf (padTo 60 [code, tag])) (padTo 60 [code, tag])))

def execDescribe (l : Side) (tag : Byte) (s : State) : Host.Outcome State Fault Refusal :=
  .next (s.requestRow l tag .describe)

def execReset (l : Side) (tag : Byte) (s : State) : Host.Outcome State Fault Refusal :=
  .next (s.requestRow l tag .reset)

def execStatus (l : Side) (tag : Byte) (clear : BitVec 48) (s : State) : Host.Outcome State Fault Refusal :=
  .next (s.requestRow l tag (.status clear))

def execAlertConfig (l : Side) (tag : Byte) (enable : BitVec 48) (alertA alertB : Byte) (s : State) :
    Host.Outcome State Fault Refusal :=
  .next (s.requestRow l tag (.alertConfig enable alertA alertB))

def execStatsSnapshot (l : Side) (tag clear : Byte) (s : State) : Host.Outcome State Fault Refusal :=
  .next (s.requestRow l tag (.statsSnapshot clear))

def execStatsRead (l : Side) (tag page : Byte) (s : State) : Host.Outcome State Fault Refusal :=
  .next (s.requestRow l tag (.statsRead page))

def execCaptureStart (l : Side) (tag context slot : Byte) (pid : BitVec 16) (mode n : Byte) (s : State) :
    Host.Outcome State Fault Refusal :=
  .next (s.requestRow l tag (.captureStart context slot pid mode n))

def execCaptureCancel (l : Side) (tag context : Byte) (s : State) : Host.Outcome State Fault Refusal :=
  .next (s.requestRow l tag (.captureCancel context))

end Sys2Proof.Machine
end

