-- ==== Sys2Proof/Machine/TimeBase.lean ====
section
/-! DEFINITION. The two ends of RESET_N, PLL lock, and one tick of the 27 MHz reference with all that it counts. -/

namespace Sys2Proof.Machine

open Sys2Proof

/-! ## Start-up (R1) -/

/-- RESET_N low: every block in its power-on state. The board's drives on the auxiliary pins and the received signals are
outside the part and stay as they are (log entry 6); the queue of waiting commands and the count of free values used are
the model's own. -/
def State.powerOn (s : State) : State :=
  { State.reset with
    aux := { AuxUnit.initial with drive0 := s.aux.drive0, drive1 := s.aux.drive1 }
    linkA := { LinkUnit.initial with signal := s.linkA.signal }
    linkB := { LinkUnit.initial with signal := s.linkB.signal }
    freeCount := s.freeCount
    pending := s.pending }

def execPowerOnReset (s : State) : Host.Outcome State Fault Refusal := .next s.powerOn

/-- RESET_N goes high: REF_SEL is sampled once (R1, step 1). -/
def execResetRelease (strap : RefSource) (s : State) : Host.Outcome State Fault Refusal :=
  .next (if s.power = .held then { s with power := .acquiring, time := { s.time with reference := strap } } else s)

/-- The moment of lock: the STC and every period start at 0, and the first cell position begins on both links (R1,
R2, R159). -/
def State.lock (s : State) : State :=
  { s with
    power := .locked
    time := { s.time with stc := 0, oneMs := 0, tenMs := 0, cellTicks := 0 }
    linkA := { s.linkA with positionDue := true }
    linkB := { s.linkB with positionDue := true } }

def execPllLock (s : State) : Host.Outcome State Fault Refusal :=
  .next (if s.power = .acquiring then s.lock else s)

/-! ## One tick (R2, R4, R6, R144, R159, R162, R179) -/

/-- The elapsed ticks of a running period after one more tick. -/
def nextElapsed (period elapsed : Nat) : Nat := if period ≤ elapsed + 1 then 0 else elapsed + 1

/-- Whether a period ends at this tick. -/
def periodEnds (period elapsed : Nat) : Bool := decide (period ≤ elapsed + 1)

abbrev tenMsTicks : Nat := 10 * Config.ticksPerMs

def TimeBase.tick (t : TimeBase) : TimeBase :=
  { t with
    stc := t.stc + 1
    oneMs := nextElapsed Config.ticksPerMs t.oneMs
    tenMs := nextElapsed tenMsTicks t.tenMs
    cellTicks := nextElapsed Config.cellTicks t.cellTicks }

/-- The slot's phase timer and its dwell timing (R34, R73). -/
def Slot.tick (x : Slot) : Slot := { x with phase := tickPhase x.phase, trialTimer := tickTimer x.trialTimer }

/-- A cell position may begin, and a loss of signal in SYNC counts its ticks (R159, R162). -/
def LinkUnit.tick (positionBegins : Bool) (k : LinkUnit) : LinkUnit :=
  let j := { k with positionDue := k.positionDue || positionBegins }
  if !k.signal && k.delin == .sync then
    if Config.cellTicks ≤ k.lossTicks + 1 then { j with lossTicks := 0, lossDue := k.lossDue + 1 }
    else { j with lossTicks := k.lossTicks + 1 }
  else j

/-- One tick of the reference (log entry 4). -/
def State.tick (s : State) : State :=
  let t := s.time
  { s with
    time := t.tick
    rf0 := s.rf0.tick (periodEnds Config.ticksPerMs t.oneMs) (periodEnds tenMsTicks t.tenMs)
    rf1 := s.rf1.tick (periodEnds Config.ticksPerMs t.oneMs) (periodEnds tenMsTicks t.tenMs)
    aux := s.aux.tick
    slots := s.slots.map Slot.tick
    egressA := s.egressA.pace (t.stc + 1)
    egressB := s.egressB.pace (t.stc + 1)
    linkA := s.linkA.tick (periodEnds Config.cellTicks t.cellTicks)
    linkB := s.linkB.tick (periodEnds Config.cellTicks t.cellTicks)
    agent := { s.agent with interval := tickTimer s.agent.interval } }

def execStcTick (s : State) : Host.Outcome State Fault Refusal := .next (s.whenLocked s.tick)

end Sys2Proof.Machine
end

