-- ==== Sys2Proof/Machine/Dispatch.lean ====
section
/-! DEFINITION. One arm per command: the direct call of its meaning. -/

namespace Sys2Proof.Machine

open Sys2Proof

/-- The effect of a command on everything but the queue of waiting commands. -/
def exec (i : Instr) (s : State) : Host.Outcome State Fault Refusal :=
  match i with
  | .powerOnReset => Sys2Proof.Machine.execPowerOnReset s
  | .resetRelease strap => Sys2Proof.Machine.execResetRelease strap s
  | .pllLock => Sys2Proof.Machine.execPllLock s
  | .gainEvaluation input belowFs => Sys2Proof.Machine.execGainEvaluation input belowFs s
  | .clipIntervalEnd input => Sys2Proof.Machine.execClipIntervalEnd input s
  | .overload input => Sys2Proof.Machine.execOverload input s
  | .overloadHoldExpiry input => Sys2Proof.Machine.execOverloadHoldExpiry input s
  | .frontRead link tag => Sys2Proof.Machine.execFrontRead link tag s
  | .auxSet link tag mode0 mode1 protection => Sys2Proof.Machine.execAuxSet link tag mode0 mode1 protection s
  | .auxWrite link tag mask value0 value1 => Sys2Proof.Machine.execAuxWrite link tag mask value0 value1 s
  | .auxRead link tag => Sys2Proof.Machine.execAuxRead link tag s
  | .aux1LevelChange aux1 aux0 => Sys2Proof.Machine.execAux1LevelChange aux1 aux0 s
  | .mastProtectionTrip => Sys2Proof.Machine.execMastProtectionTrip s
  | .slotSet link tag p => Sys2Proof.Machine.execSlotSet link tag p s
  | .enable link tag mask => Sys2Proof.Machine.execEnable link tag mask s
  | .disable link tag mask => Sys2Proof.Machine.execDisable link tag mask s
  | .retune link tag mask => Sys2Proof.Machine.execRetune link tag mask s
  | .slotRead link tag slot page => Sys2Proof.Machine.execSlotRead link tag slot page s
  | .senseMeasurementEnd slot belowFs => Sys2Proof.Machine.execSenseMeasurementEnd slot belowFs s
  | .senseWaitEnd slot => Sys2Proof.Machine.execSenseWaitEnd slot s
  | .syncStructureFound slot mode guardFraction offsetMilliHz => Sys2Proof.Machine.execSyncStructureFound slot mode guardFraction offsetMilliHz s
  | .syncTimeout slot => Sys2Proof.Machine.execSyncTimeout slot s
  | .signallingFrameEnd slot result offsetMilliHz arrivals pointPower errorPower order => Sys2Proof.Machine.execSignallingFrameEnd slot result offsetMilliHz arrivals pointPower errorPower order s
  | .signalTimeout slot => Sys2Proof.Machine.execSignalTimeout slot s
  | .windowMoveApplied slot => Sys2Proof.Machine.execWindowMoveApplied slot s
  | .echoTableBuild slot arrivals => Sys2Proof.Machine.execEchoTableBuild slot arrivals s
  | .settleHalfEnd slot => Sys2Proof.Machine.execSettleHalfEnd slot s
  | .countHalfSymbolEnd slot pilotErrors begunBeforeTrial => Sys2Proof.Machine.execCountHalfSymbolEnd slot pilotErrors begunBeforeTrial s
  | .countHalfEnd slot => Sys2Proof.Machine.execCountHalfEnd slot s
  | .packetCompletion slot report packet firstContext => Sys2Proof.Machine.execPacketCompletion slot report packet firstContext s
  | .fecTimeout slot => Sys2Proof.Machine.execFecTimeout slot s
  | .holdExpiry slot => Sys2Proof.Machine.execHoldExpiry slot s
  | .backoffEnd slot => Sys2Proof.Machine.execBackoffEnd slot s
  | .routeAdd link tag count d0 d1 d2 => Sys2Proof.Machine.execRouteAdd link tag count d0 d1 d2 s
  | .routeRemove link tag count keys => Sys2Proof.Machine.execRouteRemove link tag count keys s
  | .routeClear link tag => Sys2Proof.Machine.execRouteClear link tag s
  | .routeRead link tag start => Sys2Proof.Machine.execRouteRead link tag start s
  | .bankAssign link tag bank owner => Sys2Proof.Machine.execBankAssign link tag bank owner s
  | .bankRead link tag => Sys2Proof.Machine.execBankRead link tag s
  | .egressSet link tag p => Sys2Proof.Machine.execEgressSet link tag p s
  | .start link tag egress => Sys2Proof.Machine.execStart link tag egress s
  | .stop link tag egress => Sys2Proof.Machine.execStop link tag egress s
  | .egressRead link tag egress page pid => Sys2Proof.Machine.execEgressRead link tag egress page pid s
  | .dueSlot egress => Sys2Proof.Machine.execDueSlot egress s
  | .cellPosition link => Sys2Proof.Machine.execCellPosition link s
  | .huntWindow link header => Sys2Proof.Machine.execHuntWindow link header s
  | .presyncHeader link header => Sys2Proof.Machine.execPresyncHeader link header s
  | .syncCell link cell => Sys2Proof.Machine.execSyncCell link cell s
  | .lossOfSignal link => Sys2Proof.Machine.execLossOfSignal link s
  | .lossFailureCount link => Sys2Proof.Machine.execLossFailureCount link s
  | .signalReturn link => Sys2Proof.Machine.execSignalReturn link s
  | .serviceIntervalEnd => Sys2Proof.Machine.execServiceIntervalEnd s
  | .unknownRequest link tag code => Sys2Proof.Machine.execUnknownRequest link tag code s
  | .describe link tag => Sys2Proof.Machine.execDescribe link tag s
  | .reset link tag => Sys2Proof.Machine.execReset link tag s
  | .status link tag clear => Sys2Proof.Machine.execStatus link tag clear s
  | .alertConfig link tag enable alertA alertB => Sys2Proof.Machine.execAlertConfig link tag enable alertA alertB s
  | .statsSnapshot link tag clear => Sys2Proof.Machine.execStatsSnapshot link tag clear s
  | .statsRead link tag page => Sys2Proof.Machine.execStatsRead link tag page s
  | .captureStart link tag context slot pid mode n => Sys2Proof.Machine.execCaptureStart link tag context slot pid mode n s
  | .captureCancel link tag context => Sys2Proof.Machine.execCaptureCancel link tag context s
  | .stcTick => Sys2Proof.Machine.execStcTick s
  | .clippedSample input => Sys2Proof.Machine.execClippedSample input s

end Sys2Proof.Machine
end

