-- ==== Sys2Proof/Safety.lean ====
section
/-! DEFINITION. What the statements speak of: a request served at once and its reply, a request taken from its queue or
made to wait, the values that SLOT_SET and ROUTE_ADD refuse, the slot that an attempt start, a failure or an entry to OFF
leaves, the bytes and the end of an egress's stream, and the laws that hold in every sound state. -/

namespace Sys2Proof.Machine

open Sys2Proof

/-! ## A request served at once (R179, R183) -/

/-- The Agent takes a request of link l at the moment it arrives: service interval IDLE, none of that link waiting, room
for the reply. -/
abbrev State.Serves (s : State) (l : Side) : Prop :=
  s.power = .locked ∧ s.agent.interval = none ∧ s.agent.requests l = [] ∧ (s.agent.replies l).length < 8

/-- From s to t the Agent does one thing: it places one reply on link l, with the summary record of t, remembers l and
begins a service interval of 64 ticks. -/
abbrev Replied (s t : State) (l : Side) (tag code : Byte) (status : Status) (data : List Byte) : Prop :=
  t.agent =
    { s.agent.setReplies l (s.agent.replies l ++ [⟨code, tag, status, summaryRecord t.events, padTo 56 data⟩]) with
      lastServed := l
      interval := some 64 }

/-- t is u but for the Agent. -/
abbrev SameButAgent (u t : State) : Prop := t = { u with agent := t.agent }

/-! ## Requests that wait (R177 to R181) -/

/-- The request row of the table that a command is: its link, its tag and its request. UNKNOWN_REQUEST is the row of the
codes that R170 does not list. -/
def rowOf : Instr → Option (Side × Byte × Request)
  | .frontRead l tag => some (l, tag, .frontRead)
  | .auxSet l tag m0 m1 protection => some (l, tag, .auxSet m0 m1 protection)
  | .auxWrite l tag mask v0 v1 => some (l, tag, .auxWrite mask v0 v1)
  | .auxRead l tag => some (l, tag, .auxRead)
  | .slotSet l tag p => some (l, tag, .slotSet p)
  | .enable l tag mask => some (l, tag, .slotControl mask 1)
  | .disable l tag mask => some (l, tag, .slotControl mask 2)
  | .retune l tag mask => some (l, tag, .slotControl mask 3)
  | .slotRead l tag slot page => some (l, tag, .slotRead slot page)
  | .routeAdd l tag count d0 d1 d2 => some (l, tag, .routeAdd count d0 d1 d2)
  | .routeRemove l tag count keys => some (l, tag, .routeRemove count keys)
  | .routeClear l tag => some (l, tag, .routeClear)
  | .routeRead l tag start => some (l, tag, .routeRead start)
  | .bankAssign l tag bank owner => some (l, tag, .bankAssign bank owner)
  | .bankRead l tag => some (l, tag, .bankRead)
  | .egressSet l tag p => some (l, tag, .egressSet p)
  | .start l tag egress => some (l, tag, .egressControl egress 1)
  | .stop l tag egress => some (l, tag, .egressControl egress 2)
  | .egressRead l tag egress page pid => some (l, tag, .egressRead egress page pid)
  | .describe l tag => some (l, tag, .describe)
  | .reset l tag => some (l, tag, .reset)
  | .status l tag clear => some (l, tag, .status clear)
  | .alertConfig l tag enable a b => some (l, tag, .alertConfig enable a b)
  | .statsSnapshot l tag clear => some (l, tag, .statsSnapshot clear)
  | .statsRead l tag page => some (l, tag, .statsRead page)
  | .captureStart l tag context slot pid mode n => some (l, tag, .captureStart context slot pid mode n)
  | .captureCancel l tag context => some (l, tag, .captureCancel context)
  | .unknownRequest l tag code => if code ∈ knownCodes then none else some (l, tag, .unknown code)
  | _ => none

/-- The state after the Agent has taken the head payload p of link l's queue: what the request's owning rule makes of the
state without it, then one reply on that link and a new service interval (R179, R181, R183). -/
def State.taken (s : State) (l : Side) (p : List Byte) (rest : List (List Byte)) : State :=
  let a := ({ s with agent := s.agent.setRequests l rest } : State).applyRequest l (requestOf p)
  let g := a.state.agent
  { a.state with agent :=
    { g.setReplies l (g.replies l ++
        [⟨byteAt p 0, byteAt p 1, a.status, summaryRecord a.state.events, padTo 56 a.data⟩]) with
      lastServed := l
      interval := some 64 } }

/-- From u to t, what a request p does that arrives on link l and is not taken at once: it joins the tail of the link's
queue, and an IDLE Agent then takes the head request of an eligible link, if there is one; a fifth is discarded with
REQ_DISCARD (R163, R177, R179, R180). -/
abbrev RequestWaits (u t : State) (l : Side) (p : List Byte) : Prop :=
  let v : State := { u with agent := u.agent.setRequests l (u.agent.requests l ++ [p]) }
  let eligible := fun m => v.agent.requests m ≠ [] ∧ (v.agent.replies m).length < 8
  ((u.agent.requests l).length < 4 →
    ((u.agent.interval ≠ none ∨ ¬eligible .a ∧ ¬eligible .b) → t = v) ∧
    ∀ m q more, u.agent.interval = none → eligible m → (eligible (otherSide m) → u.agent.lastServed = otherSide m) →
      v.agent.requests m = q :: more → t = v.taken m q more) ∧
  (4 ≤ (u.agent.requests l).length →
    t = (u.setLink l { u.link l with
      counters := { (u.link l).counters with
        requestDiscards := min ((u.link l).counters.requestDiscards + 1) 4294967295 } }).latch (.reqDiscard l))

/-! ## SLOT_SET (R17, R22) and ROUTE_ADD (R102) -/

/-- Field k of R17 carries a value that the third check of R22 refuses: one out of its range. Fields 9, 13 and 14 are
clamped and never refused. -/
def FieldBad (p : SlotSetParams) : Nat → Prop
  | 1 => 1 < p.input.toNat
  | 2 => p.frequency.toNat ≠ 0 ∧ (p.frequency.toNat < 174000 ∨ 862000 < p.frequency.toNat)
  | 3 => p.bandwidth.toNat < 6 ∨ 8 < p.bandwidth.toNat
  | 4 => 2 < p.mode.toNat
  | 5 => 4 < p.guardFraction.toNat
  | 6 => 3 < p.constellation.toNat
  | 7 => 5 < p.rate.toNat
  | 8 => 1 < p.cellPresent.toNat
  | 10 => p.dwell.toNat < 2 ∨ 64 < p.dwell.toNat ∨ p.dwell.toNat % 2 = 1
  | 11 => p.pilotLimit.toNat = 0
  | 12 => p.candidateLimit.toNat = 0 ∨ 4 < p.candidateLimit.toNat
  | 15 => p.burstLimit.toNat = 0
  | 16 => 1 < p.policy.toNat
  | _ => False

/-- Item k of R102 fails for a description. An egress set has A in bit 0 and B in bit 1, and 0xFFFF is an output PID that is
ABSENT (R169). -/
def DescBad (d : RouteDesc) : Nat → Prop
  | 1 => 5 < d.slot.toNat
  | 2 => 8190 < d.pid.toNat
  | 3 => d.egressSet.toNat = 0 ∨ 3 < d.egressSet.toNat
  | 4 => d.outA ≠ 0xFFFF ∧ d.egressSet.getLsbD 0 = false ∨ d.outB ≠ 0xFFFF ∧ d.egressSet.getLsbD 1 = false
  | 5 => d.outA ≠ 0xFFFF ∧ 8190 < d.outA.toNat ∨ d.outB ≠ 0xFFFF ∧ 8190 < d.outB.toNat
  | 6 => 1 < d.cls.toNat
  | 7 => 1 < d.replace.toNat ∨ 1 < d.correct.toNat ∨ 1 < d.renumber.toNat
  | _ => False

/-- A record's pair: its input with its centre frequency, when that is set (R21). -/
abbrev TuningRecord.Holds (r : TuningRecord) (input : RfId) (kHz : Nat) : Prop :=
  r.input = input ∧ r.frequency = some kHz

/-! ## What becomes of a slot, field by field -/

/-- The slot after an attempt start that clears its tables (R20, R35, R86). -/
def attemptStarted (entered : AcqState) (ticks : Nat) (x : Slot) : Slot :=
  { x with
    active := some x.programmed, acq := entered, phase := .ticks ticks
    echo := [], total := 0, candidates := [], window := none, mainShift := 0, movePending := false, trialTimer := none
    sigRecord := none, detected := none, noSignal := false, senseWaiting := false, framePos := 0, halfMade := none
    changePending := false
    channelPower := none, freqOffset := none, mer := none
    syncRun := 0, uncRun := 0, wrongRun := 0, goodRun := 0 }

/-- The slot at rest after its third failure, its tables cleared (R51, R52). -/
def backedOff (x : Slot) : Slot :=
  { x with
    acq := .backoff, phase := .ticks (x.backoff * 27000000), backoff := min (2 * x.backoff) 32
    echo := [], total := 0, candidates := [], window := none, mainShift := 0, movePending := false, trialTimer := none
    sigRecord := none, detected := none, halfMade := none
    channelPower := none, freqOffset := none, mer := none }

/-- The slot after a failure for another reason than WINDOW_FAIL (R50, R51). -/
def failed (r : FailureReason) (x : Slot) : Slot :=
  let y := { x with
    lastFailure := r
    attempts := x.attempts + 1
    counters := { x.counters with acqFailures := min (x.counters.acqFailures + 1) 4294967295 } }
  if x.attempts + 1 < 3 then attemptStarted .sense 540000 y else backedOff y

/-- The slot after a WINDOW_FAIL: echo table and candidate list stay readable (R51). -/
def windowFailed (x : Slot) : Slot :=
  { failed .windowFail x with echo := x.echo, total := x.total, candidates := x.candidates }

/-- The slot in OFF (R28, R34, R86). -/
def switchedOff (x : Slot) : Slot :=
  { attemptStarted .off 0 x with active := none, phase := .stopped, attempts := 0, backoff := 1 }

/-- A capture ended with a reason (R192). -/
def endedWith (r : EndReason) (c : CaptureContext) : CaptureContext :=
  { c with
    state := .draining
    endReason := some r
    pending := c.pending ++ [.endRecord r c.captured c.missed c.round c.truncated] }

/-- The capture contexts after a slot's exit from TRACK: a running capture of that slot has ended (R56, R192). -/
def leftTrack (n : SlotId) (c : CaptureContext) : CaptureContext :=
  if (c.state = .active ∨ c.state = .suspended) ∧ c.slot = n then endedWith .slotLeftTrack c else c

/-! ## Event flags (R194, R195) -/

/-- What latches leave of the event unit beside the flags: the enables and the settings stay, and alert cells become pending
when the summary has changed from 0 to 1, and only then. -/
abbrev AlertsFollow (u v : EventUnit) : Prop :=
  v.enabled = u.enabled ∧ v.alertA = u.alertA ∧ v.alertB = u.alertB ∧
  (summary u = false → summary v = true →
    v.pendingA = (u.pendingA || u.alertA) ∧ v.pendingB = (u.pendingB || u.alertB)) ∧
  (summary v = summary u → v.pendingA = u.pendingA ∧ v.pendingB = u.pendingB)

/-! ## The stream of an egress (R152, R168) -/

/-- The bytes of the stream that an egress still holds, oldest first. -/
def Egress.streamBytes (x : Egress) : List Byte := x.txBuffer.flatMap StreamCell.payload ++ x.assembly.bytes

/-- The end of a stream, from the egress x before it to y: a partial cell is filled with 0xFF and marked END, in the
transmit buffer or, when that is full, where it stands; with none the newest complete cell is marked, and with no cell
at all one of fill is made (R141). -/
abbrev StreamEnded (x y : Egress) : Prop :=
  (∀ c cs, x.assembly.bytes = c :: cs → x.txBuffer.length < 4 →
    y.txBuffer = x.txBuffer ++ [⟨x.assembly.bytes ++ List.replicate (60 - x.assembly.bytes.length) 0xFF,
      x.assembly.startOffset, true⟩] ∧ y.assembly = ⟨[], 255, false⟩) ∧
  (∀ c cs, x.assembly.bytes = c :: cs → 4 ≤ x.txBuffer.length →
    y.txBuffer = x.txBuffer ∧
    y.assembly = ⟨x.assembly.bytes ++ List.replicate (60 - x.assembly.bytes.length) 0xFF,
      x.assembly.startOffset, true⟩) ∧
  (∀ cells c, x.assembly.bytes = [] → x.txBuffer = cells ++ [c] →
    y.txBuffer = cells ++ [{ c with isEnd := true }] ∧ y.assembly = x.assembly) ∧
  (x.assembly.bytes = [] → x.txBuffer = [] →
    y.txBuffer = [⟨List.replicate 60 0xFF, 255, true⟩] ∧ y.assembly = x.assembly)

/-! ## Laws of a sound state -/

/-- The tables are in their canonical form: the Route Table by index, each Continuity Table by PID (log entry 18). -/
abbrev State.TablesCanonical (s : State) : Prop :=
  Memory.wf RouteEntry.initial Config.routeEntries s.routes ∧
  Memory.wf (0 : BitVec 4) 8192 s.egressA.continuity ∧
  Memory.wf (0 : BitVec 4) 8192 s.egressB.continuity

/-- A valid entry's own part of R97 and R99: its egress set is not empty, an output PID is present for an egress of that set
alone, and no PID of it is 8191. -/
abbrev RouteEntry.Law (r : RouteEntry) : Prop :=
  (r.toA = true ∨ r.toB = true) ∧ (r.toA = false → r.outA = none) ∧ (r.toB = false → r.outB = none) ∧
  r.pid ≠ 8191 ∧ r.outA ≠ some 8191 ∧ r.outB ≠ some 8191

/-- R99: every valid entry keeps its law; two valid entries have different keys, and on an egress to which both send
different effective output PIDs. -/
abbrev State.RouteLaw (s : State) : Prop :=
  (∀ i, i < 256 → (s.route i).valid = true → (s.route i).Law) ∧
  ∀ i j, i < 256 → j < i → (s.route i).valid = true → (s.route j).valid = true →
    ¬((s.route i).slot = (s.route j).slot ∧ (s.route i).pid = (s.route j).pid) ∧
    ∀ e : Side, (s.route i).sends e = true → (s.route j).sends e = true → (s.route i).outPid e ≠ (s.route j).outPid e

/-- An enabled slot has an active record and a programmed frequency; a slot in OFF has no active record (R16, R23). -/
abbrev Slot.RecordLaw (x : Slot) : Prop :=
  (x.acq = .off → x.active = none) ∧
  (x.acq ≠ .off → x.active.isSome = true ∧ x.programmed.frequency.isSome = true)

/-- The pairs that a slot claims (R21). -/
def Slot.claims (x : Slot) (pair : RfId × Nat) : Prop :=
  x.programmedClaim = some pair ∨ x.activeClaim = some pair

/-- Every slot keeps the record law, and no pair is claimed by two slots (R16, R21). -/
abbrev State.ClaimLaw (s : State) : Prop :=
  (∀ n, (s.slot n).RecordLaw) ∧ ∀ n m pair, (s.slot n).claims pair → (s.slot m).claims pair → n = m

/-- The ranges and the boundary of R160. -/
abbrev LinkUnit.Law (k : LinkUnit) : Prop :=
  (k.delin = .hunt ↔ k.boundary = false) ∧ k.goodRun ≤ 5 ∧ (k.delin = .presync → k.goodRun ≤ 4) ∧ k.badRun ≤ 3

/-- The ranges of R136 and R137 for the pacer, the room of the cell assembly, and R133: an egress that is not RUNNING
holds no buffer and has no due slot. -/
abbrev Egress.Law (x : Egress) : Prop :=
  (x.rate = 0 ∨ 2000000 ≤ x.rate ∧ x.rate ≤ 72000000) ∧ x.acc < Config.pacerThreshold ∧
  (x.run = .running → x.assembly.bytes.length < 60 ∧ x.assembly.isEnd = false) ∧
  (x.run ≠ .running → x.dueStamps = [] ∧ ∀ n : SlotId, x.queues[n] = [])

/-- Every link and every egress keeps its law. -/
abbrev State.UnitLaw (s : State) : Prop :=
  s.linkA.Law ∧ s.linkB.Law ∧ s.egressA.Law ∧ s.egressB.Law

/-- No buffer is held twice, and every held buffer is one of its bank's 128: with the free counts of R118 this makes the
1024 of R132. A buffer that an egress or a capture holds lies in a bank of that owner, ACTIVE or DRAINING (R133). -/
abbrev State.BufferLaw (s : State) : Prop :=
  s.heldBuffers.Nodup ∧ (∀ id ∈ s.heldBuffers, id.index < 128) ∧
  (∀ e : Side, ∀ id ∈ (s.egress e).buffers, s.banks[id.bank].owner = egressOwner e) ∧
  ∀ c : CtxId, ∀ id ∈ (s.capture c).buffers, s.banks[id.bank].owner = .capture

end Sys2Proof.Machine
end

