-- ==== Sys2Proof/Certificates/Slice0/Obligations.lean ====
section
/-! DEFINITION. The statements about the part, from the numbered rules of spec/. Where a statement rests on a choice of
the model its docstring names the log entry (notes/assumptions): 7 is the reading of a request row, 4 that of a timer's
moment, 8 that of measured values. -/

section

open Sys2Proof Sys2Proof.Machine

/-! ## The block and its queue -/

/-- A step takes the command at the front of the queue and runs it on the state with the queue's rest; with no command
waiting the part idles (the model's choice, log entry 2). -/
def Obligations.StepRunsTheFrontCommand : Prop :=
  (∀ (c : Instr) (rest : List Instr) (s : State),
    step { s with pending := c :: rest } = exec c { s with pending := rest }) ∧
  ∀ s : State, s.pending = [] → step s = .next s

/-- No command stops the part, and none touches the queue of the commands that wait. -/
def Obligations.NoCommandStopsThePart : Prop :=
  ∀ (c : Instr) (s : State), ∃ t, exec c s = .next t ∧ t.pending = s.pending

/-! ## Reset and time (R1, R2, R144) -/

/-- What the power-on state holds: the gains of R3, the auxiliary lines of R10, the slots of R32, the invalid routes of
R97, the Bank Map of R118, the egresses of R136, delineation of R160 with the sending side of R165 and R166, the Agent of
R176, the captures of R187, the events of R194 and the snapshot of R198. -/
def Obligations.PowerOnValues : Prop :=
  let s := State.reset
  s.power = .held ∧
  (∀ i, (s.input i).gain = 20 ∧ (s.input i).hold = none ∧ (s.input i).clipNow = 0 ∧ (s.input i).clipLast = 0 ∧
    (s.input i).mean = -800) ∧
  s.aux.mode0 = .input ∧ s.aux.mode1 = .input ∧ s.aux.latch0 = true ∧ s.aux.latch1 = true ∧
    s.aux.protection = false ∧ s.aux.lowRun = 0 ∧
  (∀ n, (s.slot n).programmed = ⟨.rf0, none, .mhz8, none, none, none, none, none, -45, 8, 12, 2, 16, 500, 32, .mark⟩ ∧
    (s.slot n).active = none ∧ (s.slot n).acq = .off ∧ (s.slot n).attempts = 0 ∧ (s.slot n).backoff = 1 ∧
    (s.slot n).lastFailure = .none ∧ (s.slot n).sigRecord = none ∧ (s.slot n).echo = [] ∧ (s.slot n).window = none ∧
    (s.slot n).candidates = [] ∧ (s.slot n).channelPower = none ∧ (s.slot n).freqOffset = none ∧
    (s.slot n).mer = none ∧ (s.slot n).counters = ⟨0, 0, 0, 0, 0, 0, 0, 0⟩) ∧
  (∀ i, (s.route i).valid = false) ∧
  s.banks = #v[⟨.egressA, .active⟩, ⟨.egressA, .active⟩, ⟨.egressA, .active⟩, ⟨.egressA, .active⟩,
    ⟨.egressB, .active⟩, ⟨.egressB, .active⟩, ⟨.egressB, .active⟩, ⟨.capture, .active⟩] ∧
  (∀ b, s.bankFree b = 128) ∧
  (∀ e, (s.egress e).run = .stopped ∧ (s.egress e).rate = 0 ∧ (s.egress e).policy = .rotating ∧
    (s.egress e).reserve = 64 ∧ (s.egress e).ageLimit = 100 ∧ (s.egress e).offset = 0 ∧ (s.egress e).acc = 0 ∧
    (s.egress e).pointer = 5 ∧ (∀ pid, (s.egress e).continuityAt pid = 0) ∧
    (s.egress e).assembly = ⟨[], 255, false⟩ ∧ (s.egress e).txBuffer = [] ∧
    (s.egress e).counters = ⟨0, 0, 0, 0, 0, 0, 0⟩) ∧
  (∀ l, (s.link l).delin = .hunt ∧ (s.link l).boundary = false ∧ (s.link l).goodRun = 0 ∧ (s.link l).badRun = 0 ∧
    (s.link l).capturePointer = .c1 ∧ (s.link l).seq = 0 ∧ (s.link l).counters = ⟨0, 0, 0⟩) ∧
  s.agent = ⟨[], [], [], [], .b, none⟩ ∧
  (∀ c, s.capture c = ⟨.idle, 0, 0, .count, 1, .a, [], 0, 0, 0, 0, 0, .waiting, none, false, none⟩) ∧
  s.events = ⟨0, 0, false, false, false, false⟩ ∧
  s.snapshot = ⟨List.replicate 68 0, false⟩

/-- Reset and start-up: RESET_N low puts every block into its power-on state from whatever state it was in (what the
board and the signals do to the pins stays, log entry 6, and so do the model's own queue and counter); at the release the
strap is sampled; at lock the STC and every period start at 0 and a cell position begins on both links.
(Log entry 5.) -/
def Obligations.ResetAndStartUp : Prop :=
  (∀ s : State, exec .powerOnReset s = .next { State.reset with
    aux := { State.reset.aux with drive0 := s.aux.drive0, drive1 := s.aux.drive1 }
    linkA := { State.reset.linkA with signal := s.linkA.signal }
    linkB := { State.reset.linkB with signal := s.linkB.signal }
    freeCount := s.freeCount
    pending := s.pending }) ∧
  (∀ (strap : RefSource) (s : State), s.power = .held →
    exec (.resetRelease strap) s =
      .next { s with power := .acquiring, time := { s.time with reference := strap } }) ∧
  (∀ s : State, s.power = .acquiring →
    exec .pllLock s = .next { s with
      power := .locked
      time := { s.time with stc := 0, oneMs := 0, tenMs := 0, cellTicks := 0 }
      linkA := { s.linkA with positionDue := true }
      linkB := { s.linkB with positionDue := true } })

/-- One tick: the STC rises by 1 modulo 2^32, every running timer falls by 1, the ends of the 1 ms interval, the 10 ms
period and the cell position come due, and the pacer of a RUNNING egress adds its rate: at the threshold one slot falls
due with the new STC value as its departure stamp. The low-run timer rises while protection is armed and AUX1 low, up to
2 ms, and stands at 0 otherwise. A loss of signal in SYNC counts its ticks, and each full 64 make one failing header due.
Nothing that no timer drives changes. (Log entries 4, 9.) -/
def Obligations.TickMovesTimersAlone : Prop :=
  ∀ s : State, s.power = .locked →
    ∃ t, exec .stcTick s = .next t ∧
      t.time.stc = s.time.stc + 1 ∧ (s.time.stc = 4294967295 → t.time.stc = 0) ∧
      t.time.reference = s.time.reference ∧
      (s.time.oneMs < 26999 → t.time.oneMs = s.time.oneMs + 1 ∧ ∀ i, (t.input i).clipDue = (s.input i).clipDue) ∧
      (s.time.oneMs = 26999 → t.time.oneMs = 0 ∧ ∀ i, (t.input i).clipDue = true) ∧
      (s.time.tenMs < 269999 → t.time.tenMs = s.time.tenMs + 1 ∧ ∀ i, (t.input i).evalDue = (s.input i).evalDue) ∧
      (s.time.tenMs = 269999 → t.time.tenMs = 0 ∧ ∀ i, (t.input i).evalDue = true) ∧
      (s.time.cellTicks < 63 →
        t.time.cellTicks = s.time.cellTicks + 1 ∧ ∀ l, (t.link l).positionDue = (s.link l).positionDue) ∧
      (s.time.cellTicks = 63 → t.time.cellTicks = 0 ∧ ∀ l, (t.link l).positionDue = true) ∧
      (∀ i, t.input i =
        { s.input i with
          hold := (s.input i).hold.map (· - 1)
          clipDue := (t.input i).clipDue
          evalDue := (t.input i).evalDue }) ∧
      (∀ n, (t.slot n).trialTimer = (s.slot n).trialTimer.map (· - 1) ∧
        (∀ k, (s.slot n).phase = .ticks k → (t.slot n).phase = .ticks (k - 1)) ∧
        ((∀ k, (s.slot n).phase ≠ .ticks k) → (t.slot n).phase = (s.slot n).phase) ∧
        t.slot n = { s.slot n with phase := (t.slot n).phase, trialTimer := (t.slot n).trialTimer }) ∧
      t.agent = { s.agent with interval := s.agent.interval.map (· - 1) } ∧
      t.aux = { s.aux with lowRun := t.aux.lowRun } ∧
      (s.aux.armed = true → s.aux.pin1 = false → t.aux.lowRun = min (s.aux.lowRun + 1) 54000) ∧
      ((s.aux.armed = false ∨ s.aux.pin1 = true) → t.aux.lowRun = 0) ∧
      (∀ e, t.egress e = { s.egress e with acc := (t.egress e).acc, dueStamps := (t.egress e).dueStamps } ∧
        ((s.egress e).run = .running → (s.egress e).acc + (s.egress e).rate < 40608000000 →
          (t.egress e).acc = (s.egress e).acc + (s.egress e).rate ∧ (t.egress e).dueStamps = (s.egress e).dueStamps) ∧
        ((s.egress e).run = .running → 40608000000 ≤ (s.egress e).acc + (s.egress e).rate →
          (t.egress e).acc + 40608000000 = (s.egress e).acc + (s.egress e).rate ∧
          (t.egress e).dueStamps = (s.egress e).dueStamps ++ [s.time.stc + 1]) ∧
        ((s.egress e).run ≠ .running → t.egress e = s.egress e)) ∧
      (∀ l, t.link l = { s.link l with
        positionDue := (t.link l).positionDue
        lossTicks := (t.link l).lossTicks
        lossDue := (t.link l).lossDue } ∧
        ((s.link l).signal = false → (s.link l).delin = .sync → (s.link l).lossTicks < 63 →
          (t.link l).lossTicks = (s.link l).lossTicks + 1 ∧ (t.link l).lossDue = (s.link l).lossDue) ∧
        ((s.link l).signal = false → (s.link l).delin = .sync → 63 ≤ (s.link l).lossTicks →
          (t.link l).lossTicks = 0 ∧ (t.link l).lossDue = (s.link l).lossDue + 1) ∧
        (((s.link l).signal = true ∨ (s.link l).delin ≠ .sync) →
          (t.link l).lossTicks = (s.link l).lossTicks ∧ (t.link l).lossDue = (s.link l).lossDue)) ∧
      t.power = s.power ∧ t.routes = s.routes ∧ t.banks = s.banks ∧ t.capture0 = s.capture0 ∧
      t.capture1 = s.capture1 ∧ t.events = s.events ∧ t.snapshot = s.snapshot ∧ t.freeCount = s.freeCount ∧
      t.pending = s.pending

/-! ## The front end (R4 to R15) -/

/-- One evaluation of the gain loop, with the suppression of R4 and the limits of R5. Clipped samples are counted,
saturating, and the 17th of an interval makes an overload due; at the interval's end the count moves to the last complete
interval; an overload cuts the gain by 6 dB, clamped at 0 with GAIN_LIMIT, latches OVERLOAD and holds for 50 ms; at the
expiry the hold is gone. (Log entries 4, 8, 9.) -/
def Obligations.GainLoopAndOverload : Prop :=
  (∀ (i : RfId) (belowFs : Nat) (s : State), s.power = .locked → (s.input i).evalDue = true →
    ∃ g limited,
      exec (.gainEvaluation i belowFs) s =
        .next ((s.setInput i { s.input i with mean := -(min belowFs 800 : Nat), gain := g, evalDue := false }).latchIf
          limited (.gainLimit i)) ∧
      (150 < belowFs → (s.input i).hold = none → (s.input i).gain < 40 →
        g = (s.input i).gain + 1 ∧ limited = false) ∧
      (150 < belowFs → (s.input i).hold = none → 40 ≤ (s.input i).gain → g = 40 ∧ limited = true) ∧
      (150 < belowFs → (s.input i).hold ≠ none → g = (s.input i).gain ∧ limited = false) ∧
      (90 ≤ belowFs → belowFs ≤ 150 → g = (s.input i).gain ∧ limited = false) ∧
      (belowFs < 90 → 0 < (s.input i).gain → g = (s.input i).gain - 1 ∧ limited = false) ∧
      (belowFs < 90 → (s.input i).gain = 0 → g = 0 ∧ limited = true)) ∧
  ((∀ (i : RfId) (s : State), s.power = .locked →
    exec (.clippedSample i) s = .next (s.setInput i { s.input i with
      clipNow := min ((s.input i).clipNow + 1) 65535
      overloadDue := (s.input i).overloadDue || decide ((s.input i).clipNow = 16) })) ∧
  (∀ (i : RfId) (s : State), s.power = .locked → (s.input i).clipDue = true →
    exec (.clipIntervalEnd i) s = .next (s.setInput i { s.input i with
      clipLast := (s.input i).clipNow, clipNow := 0, clipDue := false })) ∧
  (∀ (i : RfId) (s : State), s.power = .locked → (s.input i).overloadDue = true →
    exec (.overload i) s = .next (((s.setInput i { s.input i with
      gain := (s.input i).gain - 6, hold := some 1350000, overloadDue := false }).latch (.overload i)).latchIf
        (decide ((s.input i).gain < 6)) (.gainLimit i))) ∧
  (∀ (i : RfId) (s : State), s.power = .locked → (s.input i).hold = some 0 →
    exec (.overloadHoldExpiry i) s = .next (s.setInput i { s.input i with hold := none })))

/-- FRONT_READ returns the STC, then for each input the gain, the hold in whole milliseconds rounded up, the last mean
power and the last clip count; it changes nothing. (Log entry 7.) -/
def Obligations.FrontReadReports : Prop :=
  ∀ (l : Side) (tag : Byte) (s : State), s.Serves l →
    ∃ t, exec (.frontRead l tag) s = .next t ∧
      Replied s t l tag 0x10 .ok
        (beBytes 4 s.time.stc.toNat ++
          beBytes 1 s.rf0.gain ++ beBytes 1 ((s.rf0.hold.getD 0 + 26999) / 27000) ++ beSigned 2 s.rf0.mean ++
            beBytes 2 s.rf0.clipLast ++
          beBytes 1 s.rf1.gain ++ beBytes 1 ((s.rf1.hold.getD 0 + 26999) / 27000) ++ beSigned 2 s.rf1.mean ++
            beBytes 2 s.rf1.clipLast) ∧
      SameButAgent s t

/-- AUX_READ reports pins, latches, modes, protection, whether it is armed and the low-run timer; it changes nothing.
(Log entries 7, 26.) -/
def Obligations.AuxReadReports : Prop :=
  ∀ (l : Side) (tag : Byte) (s : State), s.Serves l →
    ∃ t, exec (.auxRead l tag) s = .next t ∧
      Replied s t l tag 0x13 .ok
        (flagByte (pinLevel s.aux.mode0 s.aux.latch0 s.aux.drive0) ++
          flagByte (pinLevel s.aux.mode1 s.aux.latch1 s.aux.drive1) ++
          flagByte s.aux.latch0 ++ flagByte s.aux.latch1 ++ [lineModeCode s.aux.mode0, lineModeCode s.aux.mode1] ++
          flagByte s.aux.protection ++ flagByte (s.aux.protection && s.aux.mode1 == .input) ++
          beBytes 1 (min (s.aux.lowRun / 2700) 19)) ∧
      SameButAgent s t

/-- AUX_SET replaces both modes and the protection setting and no latch, and the pins follow the table of R10 at once. The
low-run timer goes on through a run of an armed AUX1 alone: when protection becomes armed or is disarmed, or AUX1 is high,
it stands at 0. A value out of range changes nothing. (Log entries 7, 23, 26.) -/
def Obligations.AuxSetReplacesModes : Prop :=
  (∀ latch, pinLevel .input latch .low = false ∧ pinLevel .input latch .high = true ∧
    pinLevel .input latch .floating = true) ∧
  (∀ drive, pinLevel .openDrain false drive = false) ∧
  pinLevel .openDrain true .low = false ∧ pinLevel .openDrain true .high = true ∧
  pinLevel .openDrain true .floating = true ∧
  (∀ latch drive, pinLevel .pushPull latch drive = latch) ∧
  (∀ x : AuxUnit, (x.armed = true ↔ x.protection = true ∧ x.mode1 = .input) ∧
    x.pin0 = pinLevel x.mode0 x.latch0 x.drive0 ∧ x.pin1 = pinLevel x.mode1 x.latch1 x.drive1) ∧
  ∀ (l : Side) (tag m0 m1 pr : Byte) (s : State), s.Serves l →
    ∃ t, exec (.auxSet l tag m0 m1 pr) s = .next t ∧
      (∀ a b p, lineModeOf m0 = some a → lineModeOf m1 = some b → flagOf pr = some p →
        Replied s t l tag 0x11 .ok t.aux.contents ∧
        t.aux = { s.aux with mode0 := a, mode1 := b, protection := p, lowRun := t.aux.lowRun } ∧
        ((s.aux.armed = false ∨ s.aux.pin1 = true ∨ t.aux.armed = false) → t.aux.lowRun = 0) ∧
        (s.aux.armed = true → t.aux.armed = true → s.aux.pin1 = false → t.aux.lowRun = s.aux.lowRun) ∧
        t = { s with aux := t.aux, agent := t.agent }) ∧
      ((lineModeOf m0 = none ∨ lineModeOf m1 = none ∨ flagOf pr = none) →
        Replied s t l tag 0x11 .badArg [] ∧ SameButAgent s t)

/-- AUX_WRITE loads both latches, a line in the mask from its value and the other from its pin; a value out of range for
a line in the mask, or a mask with any of bits 7 to 2, changes nothing. The low-run timer stays, 0 while no run is under way:
the modes do not change, and while protection is armed no latch acts on AUX1. (Log entries 7, 23, 26.) -/
def Obligations.AuxWriteLoadsBothLatches : Prop :=
  ∀ (l : Side) (tag mask v0 v1 : Byte) (s : State), s.Serves l →
    ∃ t, exec (.auxWrite l tag mask v0 v1) s = .next t ∧
      ((mask.toNat < 4 ∧ (mask.getLsbD 0 = true → v0.toNat < 2) ∧ (mask.getLsbD 1 = true → v1.toNat < 2)) →
        Replied s t l tag 0x12 .ok t.aux.contents ∧
        t.aux = { s.aux with
          latch0 := if mask.getLsbD 0 then v0 == 1 else s.aux.pin0
          latch1 := if mask.getLsbD 1 then v1 == 1 else s.aux.pin1
          lowRun := t.aux.lowRun } ∧
        (s.aux.armed = true → s.aux.pin1 = false → t.aux.lowRun = s.aux.lowRun) ∧
        ((s.aux.armed = false ∨ s.aux.pin1 = true) → t.aux.lowRun = 0) ∧
        t = { s with aux := t.aux, agent := t.agent }) ∧
      ((4 ≤ mask.toNat ∨ (mask.getLsbD 0 = true ∧ 2 ≤ v0.toNat) ∨ (mask.getLsbD 1 = true ∧ 2 ≤ v1.toNat)) →
        Replied s t l tag 0x12 .badArg [] ∧ SameButAgent s t)

/-- Mast protection: a low run on the armed AUX1 begins at 0 and any high level ends it; at 2 ms the trip sets AUX0's
latch to 0, latches MAST_FAULT and restarts the timer. (Log entries 4, 6.) -/
def Obligations.MastProtectionTrips : Prop :=
  (∀ (aux1 aux0 : LineDrive) (s : State), ∃ t,
    exec (.aux1LevelChange aux1 aux0) s = .next t ∧
      t = { s with aux := { s.aux with drive1 := aux1, drive0 := aux0, lowRun := t.aux.lowRun } } ∧
      ((s.aux.pin1 = true ∨ t.aux.pin1 = true ∨ s.aux.armed = false) → t.aux.lowRun = 0) ∧
      (s.aux.armed = true → s.aux.pin1 = false → t.aux.pin1 = false → t.aux.lowRun = s.aux.lowRun)) ∧
  (∀ s : State, s.power = .locked → s.aux.armed = true → s.aux.pin1 = false → 54000 ≤ s.aux.lowRun →
    exec .mastProtectionTrip s =
      .next (({ s with aux := { s.aux with latch0 := false, lowRun := 0 } } : State).latch .mastFault))

/-! ## Slots: requests (R17 to R33) -/

/-- SLOT_SET is all or nothing: accepted, each slot of the mask takes the fields into its programmed record and nothing
else of the part changes; refused by a check of R22, R23 or R24, in that order, nothing changes. What an accepted one
writes: the present fields alone, the three clamped ones at the nearest limit, and what its reply says of the clamped
ones. What each check refuses: a mask of no slot or of one above 5; the pair's fields for more than one slot; the first
field out of its range; a frequency taken from an enabled slot; a resulting pair that another slot holds.
(Log entries 7, 27.) -/
def Obligations.SlotSetIsAllOrNothing : Prop :=
  (∀ (l : Side) (tag : Byte) (p : SlotSetParams) (s : State), s.Serves l →
    ∃ t, exec (.slotSet l tag p) s = .next t ∧
      (setBadShape p = none → s.setUnsets p = none → s.setConflict p = none →
        Replied s t l tag 0x20 .ok (setClampReport p) ∧
        (∀ n, t.slot n = if p.mask.getLsbD n.val
          then { s.slot n with programmed := setWrite p (s.slot n).programmed } else s.slot n) ∧
        t = { s with slots := t.slots, agent := t.agent }) ∧
      (∀ data, setBadShape p = some data → Replied s t l tag 0x20 .badArg data ∧ SameButAgent s t) ∧
      (∀ n, setBadShape p = none → s.setUnsets p = some n →
        Replied s t l tag 0x20 .badState [BitVec.ofNat 8 n.val] ∧ SameButAgent s t) ∧
      (∀ data, setBadShape p = none → s.setUnsets p = none → s.setConflict p = some data →
        Replied s t l tag 0x20 .conflict data ∧ SameButAgent s t)) ∧
  (∀ (p : SlotSetParams) (r : TuningRecord),
    (p.present.getLsbD 0 = false → (setWrite p r).input = r.input) ∧
    (p.present.getLsbD 1 = false → (setWrite p r).frequency = r.frequency) ∧
    (p.present.getLsbD 2 = false → (setWrite p r).bandwidth = r.bandwidth) ∧
    (p.present.getLsbD 3 = false → (setWrite p r).mode = r.mode) ∧
    (p.present.getLsbD 4 = false → (setWrite p r).guardFraction = r.guardFraction) ∧
    (p.present.getLsbD 5 = false → (setWrite p r).constellation = r.constellation) ∧
    (p.present.getLsbD 6 = false → (setWrite p r).rate = r.rate) ∧
    (p.present.getLsbD 7 = false → (setWrite p r).cellId = r.cellId) ∧
    (p.present.getLsbD 8 = false → (setWrite p r).threshold = r.threshold) ∧
    (p.present.getLsbD 9 = false → (setWrite p r).dwell = r.dwell) ∧
    (p.present.getLsbD 10 = false → (setWrite p r).pilotLimit = r.pilotLimit) ∧
    (p.present.getLsbD 11 = false → (setWrite p r).candidateLimit = r.candidateLimit) ∧
    (p.present.getLsbD 12 = false → (setWrite p r).captureThreshold = r.captureThreshold) ∧
    (p.present.getLsbD 13 = false → (setWrite p r).holdMs = r.holdMs) ∧
    (p.present.getLsbD 14 = false → (setWrite p r).burstLimit = r.burstLimit) ∧
    (p.present.getLsbD 15 = false → (setWrite p r).policy = r.policy) ∧
    (p.present.getLsbD 1 = true → p.frequency ≠ 0 → (setWrite p r).frequency = some p.frequency.toNat) ∧
    (p.present.getLsbD 1 = true → p.frequency = 0 → (setWrite p r).frequency = none) ∧
    (p.present.getLsbD 8 = true → (setWrite p r).threshold =
      if p.threshold.toInt < -60 then -60 else if 0 < p.threshold.toInt then 0 else p.threshold.toInt) ∧
    (p.present.getLsbD 12 = true → (setWrite p r).captureThreshold =
      if p.captureThreshold.toNat < 2 then 2
      else if 128 < p.captureThreshold.toNat then 128 else p.captureThreshold.toNat) ∧
    (p.present.getLsbD 13 = true → (setWrite p r).holdMs = if 2000 < p.holdMs.toNat then 2000 else p.holdMs.toNat)) ∧
  (∀ (p : SlotSetParams) (r : TuningRecord), setBadShape p = none →
    (p.present.getLsbD 0 = true → rfCode (setWrite p r).input = p.input) ∧
    (p.present.getLsbD 2 = true → bandwidthCode (setWrite p r).bandwidth = p.bandwidth) ∧
    (p.present.getLsbD 3 = true → autoCode modeCode (setWrite p r).mode = p.mode) ∧
    (p.present.getLsbD 4 = true → autoCode guardCode (setWrite p r).guardFraction = p.guardFraction) ∧
    (p.present.getLsbD 5 = true → autoCode constellationCode (setWrite p r).constellation = p.constellation) ∧
    (p.present.getLsbD 6 = true → autoCode rateCode (setWrite p r).rate = p.rate) ∧
    (p.present.getLsbD 7 = true → (setWrite p r).cellId = if p.cellPresent = 0 then none else some p.cellId) ∧
    (p.present.getLsbD 9 = true → (setWrite p r).dwell = p.dwell.toNat) ∧
    (p.present.getLsbD 10 = true → (setWrite p r).pilotLimit = p.pilotLimit.toNat) ∧
    (p.present.getLsbD 11 = true → (setWrite p r).candidateLimit = p.candidateLimit.toNat) ∧
    (p.present.getLsbD 14 = true → (setWrite p r).burstLimit = p.burstLimit.toNat) ∧
    (p.present.getLsbD 15 = true → policyCode (setWrite p r).policy = p.policy)) ∧
  (∀ p : SlotSetParams,
    let lowLevel := p.present.getLsbD 8 && decide (p.threshold.toInt < -60)
    let highLevel := p.present.getLsbD 8 && decide (0 < p.threshold.toInt)
    let lowCapture := p.present.getLsbD 12 && decide (p.captureThreshold.toNat < 2)
    let highCapture := p.present.getLsbD 12 && decide (128 < p.captureThreshold.toNat)
    let longHold := p.present.getLsbD 13 && decide (2000 < p.holdMs.toNat)
    setClampReport p =
      [(if lowLevel || highLevel then 0x01 else 0) ||| (if lowCapture || highCapture then 0x10 else 0) |||
          (if longHold then 0x20 else 0), 0,
        if lowLevel then 0xC4 else 0, if lowCapture then 2 else if highCapture then 128 else 0] ++
        (if longHold then [0x07, 0xD0] else [0, 0])) ∧
  (∀ p : SlotSetParams,
    let maskBad := p.mask.toNat = 0 ∨ 64 ≤ p.mask.toNat
    let pairBad := (p.present.getLsbD 0 = true ∨ p.present.getLsbD 1 = true) ∧
      ∃ n m : SlotId, n ≠ m ∧ p.mask.getLsbD n.val = true ∧ p.mask.getLsbD m.val = true
    let bad := fun k : Nat => 1 ≤ k ∧ k ≤ 16 ∧ p.present.getLsbD (k - 1) = true ∧ FieldBad p k
    (maskBad → setBadShape p = some [1, 0]) ∧
    (¬maskBad → pairBad → setBadShape p = some [2, 0]) ∧
    (∀ k, ¬maskBad → ¬pairBad → bad k → (∀ j, j < k → ¬bad j) → setBadShape p = some [3, BitVec.ofNat 8 k]) ∧
    (¬maskBad → ¬pairBad → (∀ k, ¬bad k) → setBadShape p = none)) ∧
  (∀ (p : SlotSetParams) (n : SlotId) (s : State), setBadShape p = none →
    (s.setUnsets p = some n ↔
      p.present.getLsbD 1 = true ∧ p.frequency = 0 ∧ p.mask.getLsbD n.val = true ∧ (s.slot n).acq ≠ .off)) ∧
  ∀ (p : SlotSetParams) (s : State),
    let result := fun n => setWrite p (s.slot n).programmed
    let active := fun (m : SlotId) i f => (s.slot m).acq ≠ .off ∧ ∃ r, (s.slot m).active = some r ∧ r.Holds i f
    (s.setConflict p = none ↔ ∀ n m i f, p.mask.getLsbD n.val = true → n ≠ m → (result n).Holds i f →
      ¬(s.slot m).programmed.Holds i f ∧ ¬active m i f) ∧
    (setBadShape p = none → s.ClaimLaw → ∀ n m i f, p.mask.getLsbD n.val = true → n ≠ m → (result n).Holds i f →
      ((s.slot m).programmed.Holds i f →
        s.setConflict p = some [BitVec.ofNat 8 n.val, BitVec.ofNat 8 m.val, 0]) ∧
      (¬(s.slot m).programmed.Holds i f → active m i f →
        s.setConflict p = some [BitVec.ofNat 8 n.val, BitVec.ofNat 8 m.val, 1]))

/-- ENABLE of one slot, in each row of the table of R27; and of any set of slots, in ascending order up to the first
slot that has no frequency, in a state that keeps the claim law. (Log entries 7, 13.) -/
def Obligations.EnableStartsASlot : Prop :=
  (∀ (l : Side) (tag mask : Byte) (s : State), s.Serves l → s.ClaimLaw → 0 < mask.toNat → mask.toNat < 64 →
    let started := fun x : Slot => if x.acq = .off
      then attemptStarted .sense 540000 { x with attempts := 0, backoff := 1, lastFailure := .none } else x
    ∃ t, exec (.enable l tag mask) s = .next t ∧ t = { s with slots := t.slots, agent := t.agent } ∧
      ((∀ n : SlotId, mask.getLsbD n.val = true → (s.slot n).acq ≠ .off ∨ (s.slot n).programmed.frequency ≠ none) →
        Replied s t l tag 0x21 .ok [mask, 255] ∧
        ∀ n, t.slot n = if mask.getLsbD n.val then started (s.slot n) else s.slot n) ∧
      ∀ k : SlotId, mask.getLsbD k.val = true → (s.slot k).acq = .off → (s.slot k).programmed.frequency = none →
        (∀ m : SlotId, m < k → mask.getLsbD m.val = true →
          (s.slot m).acq ≠ .off ∨ (s.slot m).programmed.frequency ≠ none) →
        Replied s t l tag 0x21 .badState [mask &&& (slotBit k - 1), BitVec.ofNat 8 k.val] ∧
        ∀ n, t.slot n = if mask.getLsbD n.val ∧ n < k then started (s.slot n) else s.slot n) ∧
  ∀ (l : Side) (tag : Byte) (n : SlotId) (s : State), s.Serves l →
    ∃ t, exec (.enable l tag (slotBit n)) s = .next t ∧
      ((s.slot n).acq = .off → (s.slot n).programmed.frequency = none →
        Replied s t l tag 0x21 .badState [0, BitVec.ofNat 8 n.val] ∧ SameButAgent s t) ∧
      (∀ f, (s.slot n).acq = .off → (s.slot n).programmed.frequency = some f →
        (∃ m, m ≠ n ∧ (s.slot m).activeClaim = some ((s.slot n).programmed.input, f)) →
        Replied s t l tag 0x21 .conflict [0, BitVec.ofNat 8 n.val] ∧ SameButAgent s t) ∧
      (∀ f, (s.slot n).acq = .off → (s.slot n).programmed.frequency = some f →
        (∀ m, m ≠ n → (s.slot m).activeClaim ≠ some ((s.slot n).programmed.input, f)) →
        Replied s t l tag 0x21 .ok [slotBit n, 255] ∧
        t = { s.setSlot n (attemptStarted .sense 540000
                { s.slot n with attempts := 0, backoff := 1, lastFailure := .none }) with agent := t.agent }) ∧
      ((s.slot n).acq ≠ .off → Replied s t l tag 0x21 .ok [slotBit n, 255] ∧ SameButAgent s t)

/-- DISABLE of any set of slots: each enabled one enters OFF with its programmed record, counters and last failure
reason, every capture that watches one of them ends, and nothing else changes. (Log entry 7.) -/
def Obligations.DisableStopsItsSlots : Prop :=
  ∀ (l : Side) (tag mask : Byte) (s : State), s.Serves l → 0 < mask.toNat → mask.toNat < 64 →
    ∃ t, exec (.disable l tag mask) s = .next t ∧
      Replied s t l tag 0x21 .ok [mask, 255] ∧
      (∀ n, t.slot n = if mask.getLsbD n.val ∧ (s.slot n).acq ≠ .off then switchedOff (s.slot n) else s.slot n) ∧
      (∀ c, t.capture c =
        if mask.getLsbD (s.capture c).slot.val ∧ (s.slot (s.capture c).slot).acq ≠ .off ∧
            ((s.capture c).state = .active ∨ (s.capture c).state = .suspended)
        then endedWith .slotLeftTrack (s.capture c) else s.capture c) ∧
      t = { s with slots := t.slots, capture0 := t.capture0, capture1 := t.capture1, agent := t.agent }

/-- RETUNE of one slot: a fresh attempt from every enabled state, the backoff interval kept; a slot in TRACK ends the
captures that watch it; a slot in OFF fails with BAD_STATE. RETUNE of a set of slots acts in ascending order up to the
first slot in OFF, and ends each capture that watches a retuned slot in TRACK and no other. A mask that names no slot or
one above 5 gets BAD_ARG. SLOT_CONTROL, whatever its action, mask and outcome, leaves every slot outside its mask and
every programmed record and quality counter as they were. (Log entries 7, 13, 23.) -/
def Obligations.RetuneAndTheFrameOfSlotControl : Prop :=
  (∀ (l : Side) (tag : Byte) (n : SlotId) (s : State), s.Serves l →
    ∃ t, exec (.retune l tag (slotBit n)) s = .next t ∧
      ((s.slot n).acq = .off → Replied s t l tag 0x21 .badState [0, BitVec.ofNat 8 n.val] ∧ SameButAgent s t) ∧
      ((s.slot n).acq ≠ .off →
        Replied s t l tag 0x21 .ok [slotBit n, 255] ∧
        t.slot n = attemptStarted .sense 540000 { s.slot n with attempts := 0, lastFailure := .none } ∧
        (∀ c, t.capture c = if (s.slot n).acq = .track then leftTrack n (s.capture c) else s.capture c) ∧
        t = { s with
          slots := s.slots.set n (t.slot n)
          capture0 := t.capture0, capture1 := t.capture1, agent := t.agent })) ∧
  (∀ (l : Side) (tag mask : Byte) (s : State), s.Serves l → 0 < mask.toNat → mask.toNat < 64 →
    let fresh := fun x : Slot => attemptStarted .sense 540000 { x with attempts := 0, lastFailure := .none }
    ∃ t, exec (.retune l tag mask) s = .next t ∧
      ((∀ n : SlotId, mask.getLsbD n.val = true → (s.slot n).acq ≠ .off) →
        Replied s t l tag 0x21 .ok [mask, 255] ∧
        (∀ n, t.slot n = if mask.getLsbD n.val then fresh (s.slot n) else s.slot n) ∧
        ∀ c, t.capture c =
          let n := (s.capture c).slot
          if mask.getLsbD n.val ∧ (s.slot n).acq = .track then leftTrack n (s.capture c) else s.capture c) ∧
      ∀ k : SlotId, mask.getLsbD k.val = true → (s.slot k).acq = .off →
        (∀ m : SlotId, m < k → mask.getLsbD m.val = true → (s.slot m).acq ≠ .off) →
        Replied s t l tag 0x21 .badState [mask &&& (slotBit k - 1), BitVec.ofNat 8 k.val] ∧
        (∀ n, t.slot n = if mask.getLsbD n.val ∧ n < k then fresh (s.slot n) else s.slot n) ∧
        ∀ c, t.capture c =
          let n := (s.capture c).slot
          if mask.getLsbD n.val ∧ n < k ∧ (s.slot n).acq = .track then leftTrack n (s.capture c) else s.capture c) ∧
  (∀ (l : Side) (tag mask : Byte) (s : State), s.Serves l →
    ∀ c ∈ [Instr.enable l tag mask, Instr.disable l tag mask, Instr.retune l tag mask],
      ∃ t, exec c s = .next t ∧
        ((mask.toNat = 0 ∨ 64 ≤ mask.toNat) → Replied s t l tag 0x21 .badArg [0, 255] ∧ SameButAgent s t) ∧
        (∀ n, mask.getLsbD n.val = false → t.slot n = s.slot n) ∧
        (∀ n, (t.slot n).programmed = (s.slot n).programmed ∧ (t.slot n).counters = (s.slot n).counters) ∧
        t = { s with slots := t.slots, capture0 := t.capture0, capture1 := t.capture1, agent := t.agent })

/-- SLOT_READ returns the named page after the byte with the slot number and the state, and changes nothing; a slot above
5 or a page above 4 gets BAD_ARG; every page fits the 56 data bytes of a reply. What each page holds, byte by byte, with
the codes of R173 and the packed records of R174; that bit 3 of page 3's second byte reads 0 is the model's choice
(log entry 34), and so are the two bytes of page 2's phase timer (log entry 24) and the empty data of a refused reply (log
entry 23). (Log entry 7.) -/
def Obligations.SlotReadReturnsAPage : Prop :=
  (∀ x : Slot, x.programmed.bytes.length = 21 ∧ x.activePage.length = 23 ∧ x.statusPage.length = 30 ∧
    x.echoPage.length = 55 ∧ x.qualityPage.length = 46) ∧
  ∀ (l : Side) (tag slot page : Byte) (s : State), s.Serves l →
    ∃ t, exec (.slotRead l tag slot page) s = .next t ∧ SameButAgent s t ∧
      ((5 < slot.toNat ∨ 4 < page.toNat) → Replied s t l tag 0x22 .badArg []) ∧
      (∀ n : SlotId, slot.toNat = n.val →
        (page = 0 → Replied s t l tag 0x22 .ok (pageHead n (s.slot n) :: (s.slot n).programmed.bytes)) ∧
        (page = 1 → Replied s t l tag 0x22 .ok (pageHead n (s.slot n) :: (s.slot n).activePage)) ∧
        (page = 2 → Replied s t l tag 0x22 .ok (pageHead n (s.slot n) :: (s.slot n).statusPage)) ∧
        (page = 3 → Replied s t l tag 0x22 .ok (pageHead n (s.slot n) :: (s.slot n).echoPage)) ∧
        (page = 4 → Replied s t l tag 0x22 .ok (pageHead n (s.slot n) :: (s.slot n).qualityPage))) ∧
  ([rfCode .rf0, rfCode .rf1] = [0, 1] ∧ [bandwidthCode .mhz6, bandwidthCode .mhz7, bandwidthCode .mhz8] = [6, 7, 8] ∧
    [modeCode .s, modeCode .l] = [1, 2] ∧ [guardCode .g4, guardCode .g8, guardCode .g16, guardCode .g32] = [1, 2, 3, 4] ∧
    [constellationCode .qpsk, constellationCode .p16, constellationCode .p64] = [1, 2, 3] ∧
    [rateCode .r12, rateCode .r23, rateCode .r34, rateCode .r56, rateCode .r78] = [1, 2, 3, 4, 5] ∧
    [policyCode .mark, policyCode .drop] = [0, 1] ∧
    [acqCode .off, acqCode .sense, acqCode .sync, acqCode .signal, acqCode .window, acqCode .fecWait, acqCode .track,
      acqCode .hold, acqCode .backoff] = [0, 1, 2, 3, 4, 5, 6, 7, 8] ∧
    [failureCode .none, failureCode .syncTimeout, failureCode .signalTimeout, failureCode .mismatch,
      failureCode .windowFail, failureCode .fecTimeout] = [0, 1, 2, 3, 4, 5] ∧
    [trialCode .notTried, trialCode .settling, trialCode .counting, trialCode .passed, trialCode .failed] =
      [0, 1, 2, 3, 4]) ∧
  (∀ (n : SlotId) (x : Slot), pageHead n x = BitVec.ofNat 8 (16 * n.val + (acqCode x.acq).toNat)) ∧
  ∀ x : Slot,
    let flag := fun b : Bool => if b then (1 : Byte) else 0
    let fields := fun r : TuningRecord =>
      [rfCode r.input] ++ beBytes 3 (r.frequency.getD 0) ++
        [bandwidthCode r.bandwidth, (r.mode.map modeCode).getD 0, (r.guardFraction.map guardCode).getD 0,
          (r.constellation.map constellationCode).getD 0, (r.rate.map rateCode).getD 0, flag r.cellId.isSome] ++
        beBytes 2 ((r.cellId.map BitVec.toNat).getD 0) ++ beSigned 1 r.threshold ++ beBytes 1 r.dwell ++
        beBytes 1 r.pilotLimit ++ beBytes 1 r.candidateLimit ++ beBytes 1 r.captureThreshold ++ beBytes 2 r.holdMs ++
        beBytes 1 r.burstLimit ++ [policyCode r.policy]
    let word := fun w : Option SigWord =>
      match w with
      | none => List.replicate 9 0
      | some w => [1, modeCode w.mode, guardCode w.guardFraction, constellationCode w.constellation, rateCode w.rate] ++
          beBytes 2 w.cellId.toNat ++ beBytes 1 w.frameIndex.toNat ++ [flag w.announced]
    let timer :=
      match x.phase with
      | .stopped => 0
      | .ticks k => (k + 26999) / 27000
      | .frames k => k
    let captured := (x.window.map fun r => capturedEnergy x.tuning.captureThreshold x.span x.echo r).getD 0
    let trial := if x.acq = .window then
        ((x.candidates.findIdx? fun c => c.trial == .settling || c.trial == .counting).map (· + 1)).getD 0
      else 0
    let entry := fun i : Nat =>
      match x.candidates[i]? with
      | none => 0
      | some c => (c.reference % 8192).toNat * 2 ^ 31 + c.energy % 4096 * 2 ^ 19 + trialCode c.trial * 2 ^ 16 +
          c.errors % 65536
    x.programmed.bytes = fields x.programmed ∧
    (x.active = none → x.activePage = List.replicate 23 0) ∧
    (∀ r, x.active = some r → x.activePage = [1] ++ fields r ++ [flag (decide (r ≠ x.programmed))]) ∧
    x.statusPage =
      [flag x.noSignal, if x.acq = .sense then (if x.senseWaiting then 2 else 1) else 0] ++ beBytes 1 x.attempts ++
        beBytes 1 x.backoff ++ beBytes 2 timer ++ [failureCode x.lastFailure] ++
        (match x.detected with
          | none => [0, 0, 0]
          | some d => [1, modeCode d.mode, guardCode d.guardFraction]) ++
        word x.sigRecord ++ beBytes 1 x.framePos.toNat ++ word x.halfMade ++ [flag x.changePending] ∧
    x.echoPage =
      beBytes 1 (16 * x.echo.length + 4 * x.window.isSome.toNat + 2 * x.movePending.toNat +
          if x.window.isSome ∧ captured < x.total then 1 else 0) ++
        beBytes 1 (16 * x.candidates.length + trial % 16) ++
        beBytes 3 (x.total % 4096 * 4096 + captured % 4096) ++ beSigned 2 x.mainShift ++
        beSigned 2 (x.window.getD 0) ++
        ((x.echo.take 8).flatMap fun p => beBytes 3 ((p.delay % 8192).toNat * 2048 + p.power % 512 * 4 +
          if x.tuning.captureThreshold ≤ p.power then 2 else 0)) ++
        List.replicate (24 - 3 * x.echo.length) 0 ++
        beBytes 22 (entry 0 * 2 ^ 132 + entry 1 * 2 ^ 88 + entry 2 * 2 ^ 44 + entry 3) ∧
    x.qualityPage =
      (match x.channelPower with
        | none => [0, 0, 0]
        | some v => 1 :: beSigned 2 v) ++
        (match x.freqOffset with
          | none => [0, 0, 0, 0]
          | some v => 1 :: beSigned 3 v) ++
        (match x.mer with
          | none => [0, 0, 0]
          | some v => 1 :: beBytes 2 v) ++
        beBytes 1 x.syncRun ++ beBytes 1 x.uncRun ++ beBytes 1 x.wrongRun ++ beBytes 1 x.goodRun ++
        beBytes 4 x.counters.delivered ++ beBytes 4 x.counters.corrected ++ beBytes 4 x.counters.bytesCorrected ++
        beBytes 4 x.counters.uncorrectable ++ beBytes 4 x.counters.lockLosses ++ beBytes 4 x.counters.acqFailures ++
        beBytes 4 x.counters.nulls ++ beBytes 4 x.counters.unrouted

/-! ## Acquisition and tracking (R34 to R62) -/

/-- The SENSE cycle: at or above the threshold the slot enters SYNC, below it waits 200 ms with NO_SIGNAL set; the wait's
end begins a new measurement of 20 ms. SYNC finds a structure on a pair that the active record allows, with the carrier in
the pull-in range; on another pair it finds nothing. That the first offset is rounded as R93 rounds, halves away from
zero, is the model's choice (log entry 32). (Log entries 3, 4, 8.) -/
def Obligations.SenseAndSyncFindTheSignal : Prop :=
  (∀ (n : SlotId) (s : State), s.power = .locked → (s.slot n).acq = .sense → (s.slot n).phase = .ticks 0 →
    (∀ belowFs : Nat, (s.slot n).senseWaiting = false →
      10 * (s.slot n).tuning.threshold ≤ -(min belowFs 800 : Nat) →
      exec (.senseMeasurementEnd n belowFs) s = .next (s.setSlot n { s.slot n with
        channelPower := some (-(min belowFs 800 : Nat)), acq := .sync, phase := .ticks 4050000, noSignal := false
        senseWaiting := false })) ∧
    (∀ belowFs : Nat, (s.slot n).senseWaiting = false →
      -(min belowFs 800 : Nat) < 10 * (s.slot n).tuning.threshold →
      exec (.senseMeasurementEnd n belowFs) s = .next (s.setSlot n { s.slot n with
        channelPower := some (-(min belowFs 800 : Nat)), noSignal := true, senseWaiting := true
        phase := .ticks 5400000 })) ∧
    ((s.slot n).senseWaiting = true →
      exec (.senseWaitEnd n) s = .next (s.setSlot n { s.slot n with senseWaiting := false, phase := .ticks 540000 }))) ∧
  (∀ (n : SlotId) (m : CarrierMode) (g : Guard) (milliHz : Int) (s : State), s.power = .locked → (s.slot n).acq = .sync →
    -250000000 ≤ milliHz → milliHz ≤ 250000000 →
    (((s.slot n).tuning.mode = none ∨ (s.slot n).tuning.mode = some m) →
      ((s.slot n).tuning.guardFraction = none ∨ (s.slot n).tuning.guardFraction = some g) →
      exec (.syncStructureFound n m g milliHz) s = .next (s.setSlot n { s.slot n with
        detected := some ⟨m, g⟩, freqOffset := some (storedOffset milliHz), acq := .signal, phase := .frames 6, halfMade := none })) ∧
    (((∃ e, e ≠ m ∧ (s.slot n).tuning.mode = some e) ∨ (∃ e, e ≠ g ∧ (s.slot n).tuning.guardFraction = some e)) →
      exec (.syncStructureFound n m g milliHz) s = .next s))

/-- The three time limits end the attempt: the reason, the counter, ACQ_FAILED and the attempt count, then the retry in
SENSE with a new copy, or after the third failure BACKOFF with its interval doubled. The rest of BACKOFF ends with an
attempt start and attempt count 0; the hold ends with LOCK_LOST, its count and the restart at SYNC.
(Log entries 4, 10, 13.) -/
def Obligations.PhaseTimersEndTheirStates : Prop :=
  ∀ (n : SlotId) (s : State), s.power = .locked →
    ((s.slot n).acq = .sync → (s.slot n).phase = .ticks 0 →
      exec (.syncTimeout n) s = .next ((s.setSlot n (failed .syncTimeout (s.slot n))).latch (.acqFailed n))) ∧
    ((s.slot n).acq = .fecWait → (s.slot n).phase = .ticks 0 →
      exec (.fecTimeout n) s = .next ((s.setSlot n (failed .fecTimeout (s.slot n))).latch (.acqFailed n))) ∧
    ((s.slot n).acq = .signal → (s.slot n).phase = .frames 1 →
      exec (.signalTimeout n) s = .next ((s.setSlot n (failed .signalTimeout (s.slot n))).latch (.acqFailed n))) ∧
    ((s.slot n).acq = .backoff → (s.slot n).phase = .ticks 0 →
      exec (.backoffEnd n) s =
        .next (s.setSlot n (attemptStarted .sense 540000 { s.slot n with attempts := 0 }))) ∧
    ((s.slot n).acq = .hold → (s.slot n).phase = .ticks 0 →
      exec (.holdExpiry n) s = .next ((s.setSlot n (attemptStarted .sync 4050000 { s.slot n with
        attempts := 0
        counters := { (s.slot n).counters with
          lockLosses := min ((s.slot n).counters.lockLosses + 1) 4294967295 } })).latch (.lockLost n)))

/-- Word results in SIGNAL: a mismatching word fails the attempt, an agreeing second word is accepted and leads to WINDOW
or, with a record of the same structure, to FEC_WAIT; every other result costs one of the six, and the last fails,
whether it is a bad word or a good one that completes no agreement. A frame that was in progress at the entry yields no
result and stores the offset alone. A word
mismatches when an expectation that is set differs from it. The carrier loop's offset is stored first (log entry 11), and
while a signalling record is present each result moves the frame position. (Log entries 8, 10, 12, 13.) -/
def Obligations.SignallingWordsInSignal : Prop :=
  (∀ (x : Slot) (w : SigWord),
    x.mismatches w = true ↔
      (∃ e, x.tuning.mode = some e ∧ e ≠ w.mode) ∨ (∃ e, x.tuning.guardFraction = some e ∧ e ≠ w.guardFraction) ∨
      (∃ e, x.tuning.constellation = some e ∧ e ≠ w.constellation) ∨ (∃ e, x.tuning.rate = some e ∧ e ≠ w.rate) ∨
      (∃ e, x.tuning.cellId = some e ∧ e ≠ w.cellId)) ∧
  ∀ (n : SlotId) (milliHz : Int) (arrivals : List Arrival) (pp ep : Nat) (order : FrameOrder) (s : State),
    s.power = .locked → (s.slot n).acq = .signal →
    let y := { s.slot n with freqOffset := some (storedOffset milliHz) }
    let x := fun pos : BitVec 2 => { y with framePos := if y.sigRecord = none then y.framePos else pos }
    let result := fun r => exec (.signallingFrameEnd n r milliHz arrivals pp ep order) s
    (∀ w, y.mismatches w = true →
      result (.good w) =
        .next ((((s.setSlot n (failed .mismatch (x w.frameIndex))).latch (.mismatch n))).latch (.acqFailed n))) ∧
    (∀ w v, y.mismatches w = false → w.announced = false → y.detected = some ⟨w.mode, w.guardFraction⟩ →
      y.halfMade = some v → w = { v with frameIndex := v.frameIndex + 1 } →
      (y.sigRecord = none →
        result (.good w) = .next (s.setSlot n { y with
          sigRecord := some w, framePos := w.frameIndex, halfMade := none, phase := .stopped, acq := .window
          echo := [], total := 0, candidates := [], window := none, movePending := false, trialTimer := none })) ∧
      (∀ r, y.sigRecord = some r → r.mode = w.mode → r.guardFraction = w.guardFraction →
        result (.good w) = .next (s.setSlot n { y with
          sigRecord := some w, framePos := w.frameIndex, halfMade := none, phase := .ticks 8100000, acq := .fecWait
          trialTimer := none, syncRun := 0, uncRun := 0, wrongRun := 0, goodRun := 0 })) ∧
      (∀ r, y.sigRecord = some r → (r.mode ≠ w.mode ∨ r.guardFraction ≠ w.guardFraction) →
        result (.good w) = .next (s.setSlot n { y with
          sigRecord := some w, framePos := w.frameIndex, halfMade := none, phase := .stopped, acq := .window
          echo := [], total := 0, candidates := [], window := none, movePending := false, trialTimer := none }))) ∧
    (∀ w k, y.mismatches w = false → w.announced = false → y.detected = some ⟨w.mode, w.guardFraction⟩ →
      (∀ v, y.halfMade = some v → w ≠ { v with frameIndex := v.frameIndex + 1 }) → y.phase = .frames (k + 2) →
      result (.good w) = .next (s.setSlot n { x w.frameIndex with halfMade := some w, phase := .frames (k + 1) })) ∧
    (∀ w k, y.mismatches w = false → (w.announced = true ∨ y.detected ≠ some ⟨w.mode, w.guardFraction⟩) →
      y.phase = .frames (k + 2) →
      result (.good w) = .next (s.setSlot n { x w.frameIndex with halfMade := none, phase := .frames (k + 1) })) ∧
    (∀ k, y.phase = .frames (k + 2) →
      result .bad = .next (s.setSlot n { x (y.framePos + 1) with halfMade := none, phase := .frames (k + 1) })) ∧
    (y.phase = .frames 1 →
      result .bad = .next ((s.setSlot n (failed .signalTimeout (x (y.framePos + 1)))).latch (.acqFailed n))) ∧
    (∀ w, y.mismatches w = false → y.phase = .frames 1 →
      ((w.announced = true ∨ y.detected ≠ some ⟨w.mode, w.guardFraction⟩) ∨
        (∀ v, y.halfMade = some v → w ≠ { v with frameIndex := v.frameIndex + 1 })) →
      result (.good w) =
        .next ((s.setSlot n (failed .signalTimeout (x w.frameIndex))).latch (.acqFailed n))) ∧
    result .uncounted = .next (s.setSlot n y)

/-- In WINDOW, FEC_WAIT and HOLD a word result moves the frame position and nothing else of acquisition; the offset is
stored, and in HOLD the MER estimate too, but for a frame end at the moment of the entry to HOLD with the entry taken
first: it makes no estimate, and the earlier value stays. (Log entries 8, 11, 12.) -/
def Obligations.WordsMoveTheFramePosition : Prop :=
  ∀ (n : SlotId) (r : WordResult) (milliHz : Int) (arrivals : List Arrival) (pp ep : Nat) (order : FrameOrder) (s : State),
    s.power = .locked →
    ((s.slot n).acq = .window ∨ (s.slot n).acq = .fecWait ∨ (s.slot n).acq = .hold) →
    ∃ pos mer,
      exec (.signallingFrameEnd n r milliHz arrivals pp ep order) s =
        .next (s.setSlot n { s.slot n with freqOffset := some (storedOffset milliHz), framePos := pos, mer := mer }) ∧
      (∀ w, r = .good w → pos = w.frameIndex) ∧ (r = .bad → pos = (s.slot n).framePos + 1) ∧
      ((s.slot n).acq ≠ .hold → mer = (s.slot n).mer) ∧
      ((s.slot n).acq = .hold → order ≠ .exitFirst → mer = some (merOf pp ep)) ∧
      ((s.slot n).acq = .hold → order = .exitFirst → mer = (s.slot n).mer)

/-- Words in TRACK, bad ones (`none`) and good ones, in either order with the rebuild. An announcing compatible word sets
change pending, and PARAM_CHANGE is latched by it when change pending was clear and by a confirmed change, and by no other
word: a further announcing one latches nothing. Any frame end that brings the position to 3 with change pending leads to
SIGNAL; two agreeing incompatible words confirm a change and lead to SIGNAL or SYNC; every other word keeps the slot in
TRACK. On every exit the captures of the slot end and the MER estimate becomes absent, and the table and the window are
those before the frame end when the word is taken first. ECHO_SPREAD is latched exactly by a rebuild whose chosen window
leaves eligible energy uncaptured, no other flag is touched, and the alert cells follow the summary. That a confirmation
at the boundary goes before it is the model's choice (log entry 11). (Log entries 8, 11.) -/
def Obligations.ParameterChangesLeaveTrack : Prop :=
  ∀ (n : SlotId) (word : Option SigWord) (r : SigWord) (milliHz : Int) (arrivals : List Arrival) (pp ep : Nat)
    (order : FrameOrder) (s : State),
    s.power = .locked → (s.slot n).acq = .track → (s.slot n).sigRecord = some r →
    let x := s.slot n
    let compatible := fun w : SigWord => w = { r with frameIndex := w.frameIndex, announced := w.announced }
    let announces := ∃ w, word = some w ∧ compatible w ∧ w.announced = true
    let confirms := ∃ w v, word = some w ∧ ¬compatible w ∧ x.halfMade = some v ∧
      w = { v with frameIndex := v.frameIndex + 1 }
    let position := (word.map SigWord.frameIndex).getD (x.framePos + 1)
    let boundary := (x.changePending = true ∨ announces) ∧ position = 3
    ∃ t, exec (.signallingFrameEnd n ((word.map WordResult.good).getD .bad) milliHz arrivals pp ep order) s = .next t ∧
      (let y := t.slot n
       y.framePos = position ∧ y.freqOffset = some (storedOffset milliHz) ∧ y.sigRecord = some r ∧
       y.active = x.active ∧ y.detected = x.detected ∧ y.counters = x.counters ∧ y.programmed = x.programmed ∧
       (¬confirms → ¬boundary →
         y.acq = .track ∧ (y.changePending = true ↔ x.changePending = true ∨ announces) ∧ y.mer = some (merOf pp ep) ∧
         (∀ w, word = some w → ¬compatible w → y.halfMade = some w) ∧
         ((∀ w, word = some w → compatible w) → y.halfMade = none) ∧
         ∀ c, t.capture c = s.capture c) ∧
       (¬confirms → boundary → y.acq = .signal ∧ y.phase = .frames 6) ∧
       (∀ w, word = some w → confirms → w.mode = r.mode ∧ w.guardFraction = r.guardFraction →
         y.acq = .signal ∧ y.phase = .frames 6) ∧
       (∀ w, word = some w → confirms → ¬(w.mode = r.mode ∧ w.guardFraction = r.guardFraction) →
         y.acq = .sync ∧ y.phase = .ticks 4050000) ∧
       ((confirms ∨ boundary) →
         y.changePending = false ∧ y.halfMade = none ∧ y.mer = none ∧ ∀ c, t.capture c = leftTrack n (s.capture c)) ∧
       ((confirms ∨ boundary) → order = .wordFirst →
         y.echo = x.echo ∧ y.total = x.total ∧ y.window = x.window ∧ y.candidates = x.candidates) ∧
       (¬((confirms ∨ boundary) ∧ order = .wordFirst) →
         y.echo = (x.rebuild arrivals).echo ∧ y.total = (x.rebuild arrivals).total ∧
         y.window = (x.rebuild arrivals).window ∧ y.candidates = (x.rebuild arrivals).candidates)) ∧
      (t.events.latched.getLsbD (5 * n.val + 4) = true ↔
        s.events.latched.getLsbD (5 * n.val + 4) = true ∨ confirms ∨ (announces ∧ x.changePending = false)) ∧
      (let z := x.rebuild arrivals
       t.events.latched.getLsbD (5 * n.val + 3) = true ↔ s.events.latched.getLsbD (5 * n.val + 3) = true ∨
         ¬((confirms ∨ boundary) ∧ order = .wordFirst) ∧
           ∃ w, z.window = some w ∧ capturedEnergy x.tuning.captureThreshold x.span z.echo w < z.total) ∧
      (∀ k, k ≠ 5 * n.val + 3 → k ≠ 5 * n.val + 4 → t.events.latched.getLsbD k = s.events.latched.getLsbD k) ∧
      AlertsFollow s.events t.events ∧
      t = { s with slots := s.slots.set n (t.slot n), events := t.events, capture0 := t.capture0, capture1 := t.capture1 }

/-! ## Echo and window (R63 to R83) -/

/-- The table of any measurement keeps R63: at most 8 paths, strictly ascending delays in the range of the mode, powers 2
to 256, none before the main path at 256, and a non-empty table has its main path. What it contains: nothing exactly when
no path is resolved; otherwise the main path with power 256, and of the other resolved positions whose delay lies in the
range and whose rounded relative power is 2 or more those that fewer than seven such positions precede by listed power,
highest first, then by delay. The listed power of a position is its combined power relative to the main path's, times 256,
to the nearest integer with halves up, and at most 255 before the main path. That the listed, rounded power decides the
last places is the model's reading (log entry 14), and the range of mode L without a detected structure its choice (log
entry 31). (Log entry 8.) -/
def Obligations.EchoTablesAreWellFormed : Prop :=
  (∀ (d : Structure) (arrivals : List Arrival),
    let table := echoTable (some d) arrivals
    table.length ≤ 8 ∧ table.Pairwise (fun p q => p.delay < q.delay) ∧
    (table ≠ [] → (⟨0, 256⟩ : EchoPath) ∈ table) ∧
    (∀ p ∈ table, 2 ≤ p.power ∧ p.power ≤ 256 ∧ (p.delay < 0 → p.power < 256) ∧
      (d.mode = .l → -4096 ≤ p.delay ∧ p.delay ≤ 4095) ∧ (d.mode = .s → -1024 ≤ p.delay ∧ p.delay ≤ 1023)) ∧
    (table = [] ↔ mainArrival arrivals = none) ∧
    ∀ main, mainArrival arrivals = some main →
      let power := fun q : Int => (arrivals.map fun a => if a.position = q then a.power else 0).sum
      let listed := fun q : Int =>
        min ((512 * power q + main.power) / (2 * main.power)) (if q < main.position then 255 else 256)
      let inRange := fun q : Int => match d.mode with
        | .l => -4096 ≤ q - main.position ∧ q - main.position ≤ 4095
        | .s => -1024 ≤ q - main.position ∧ q - main.position ≤ 1023
      let competes := fun q : Int => q ≠ main.position ∧ 2 ≤ listed q ∧ inRange q
      let precedes := fun r q : Int => listed q < listed r ∨ listed r = listed q ∧ r < q
      ∀ p : EchoPath, p ∈ table ↔ p = ⟨0, 256⟩ ∨ ∃ q, competes q ∧ p = ⟨q - main.position, listed q⟩ ∧
        ∀ rs : List Int, rs.Nodup → (∀ r ∈ rs, competes r ∧ precedes r q) → rs.length < 7) ∧
  ∀ (g : Guard) (arrivals : List Arrival), echoTable none arrivals = echoTable (some ⟨.l, g⟩) arrivals

/-- The captured energy of any reference is the sum of the powers of the eligible paths with a delay from the reference
to the reference plus the span, both included, and 0 when there is none. It never exceeds the total eligible energy, and
equals it exactly when every eligible path lies within the span. -/
def Obligations.CapturedEnergyIsBounded : Prop :=
  ∀ (threshold : Nat) (span : Int) (table : List EchoPath) (r : Int),
    capturedEnergy threshold span table r =
      (table.map fun p => if threshold ≤ p.power ∧ r ≤ p.delay ∧ p.delay ≤ r + span then p.power else 0).sum ∧
    ((∀ p ∈ table, threshold ≤ p.power → p.delay < r ∨ r + span < p.delay) →
      capturedEnergy threshold span table r = 0) ∧
    totalEnergy threshold table = (table.map fun p => if threshold ≤ p.power then p.power else 0).sum ∧
    capturedEnergy threshold span table r ≤ totalEnergy threshold table ∧
    ((∀ p ∈ table, 0 < p.power) →
      (capturedEnergy threshold span table r = totalEnergy threshold table ↔
        ∀ p ∈ table, threshold ≤ p.power → r ≤ p.delay ∧ p.delay ≤ r + span))

/-- The build in WINDOW: on a measurement with a path the table and the ranked list are formed, the first entry begins
its trial and ECHO_SPREAD is latched when the top candidate leaves energy uncaptured; on none the attempt fails.
The ranking has one entry, not tried, for each eligible path, with its delay as reference and the energy captured from
there over the guard length of the detected structure; the entries stand by captured energy, highest first, and by
ascending delay where it is equal.
(Log entries 8, 13, 15.) -/
def Obligations.BuildBeginsTheTrials : Prop :=
  (∀ (threshold : Nat) (span : Int) (table : List EchoPath), table.Pairwise (fun p q => p.delay < q.delay) →
    let list := ranking threshold span table
    list.Pairwise (fun a b => b.energy < a.energy ∨ b.energy = a.energy ∧ a.reference < b.reference) ∧
    list.length = (table.filter fun p => decide (threshold ≤ p.power)).length ∧
    ∀ c, c ∈ list ↔ ∃ p ∈ table, threshold ≤ p.power ∧
      c = ⟨p.delay, capturedEnergy threshold span table p.delay, .notTried, 0⟩) ∧
  ([guardSamples ⟨.s, .g4⟩, guardSamples ⟨.s, .g8⟩, guardSamples ⟨.s, .g16⟩, guardSamples ⟨.s, .g32⟩] =
      [512, 256, 128, 64] ∧
    [guardSamples ⟨.l, .g4⟩, guardSamples ⟨.l, .g8⟩, guardSamples ⟨.l, .g16⟩, guardSamples ⟨.l, .g32⟩] =
      [2048, 1024, 512, 256] ∧
    ∀ (x : Slot) (d : Structure), x.detected = some d → x.span = guardSamples d) ∧
  ∀ (n : SlotId) (arrivals : List Arrival) (s : State),
    s.power = .locked → (s.slot n).acq = .window → (s.slot n).trialTimer = none →
    let x := s.slot n
    let table := echoTable x.detected arrivals
    let list := (ranking x.tuning.captureThreshold x.span table).take x.tuning.candidateLimit
    (∀ top rest, list = top :: rest →
      exec (.echoTableBuild n arrivals) s =
        .next ((s.setSlot n { x with
          echo := table
          total := totalEnergy x.tuning.captureThreshold table
          candidates := { top with trial := .settling, errors := 0 } :: rest
          timingRef := ((mainArrival arrivals).map Arrival.position).or x.timingRef
          mainShift := 0
          trialTimer := some (x.tuning.dwell / 2 * 27000) }).latchIf
            (decide (top.energy < totalEnergy x.tuning.captureThreshold table)) (.echoSpread n))) ∧
    ((∀ a ∈ arrivals, a.power = 0) →
      exec (.echoTableBuild n arrivals) s =
        .next ((s.setSlot n { windowFailed x with echo := [], total := 0, candidates := [], mainShift := 0 }).latch
          (.acqFailed n)))

/-- A candidate trial, of the first entry of the list or of one behind entries that have failed: the settle half ends in
COUNTING; the pilot errors of every symbol but the excluded one are added, saturating; at the end a count at or below the
threshold passes, fixes the window and enters FEC_WAIT; a count above it begins the next entry's trial, or on the last
entry fails the attempt with WINDOW_FAIL. (Log entries 4, 13.) -/
def Obligations.TrialsSettleCountAndEnd : Prop :=
  ∀ (n : SlotId) (done : List Candidate) (c : Candidate) (rest : List Candidate) (s : State),
    s.power = .locked → (s.slot n).acq = .window → (s.slot n).candidates = done ++ c :: rest →
    (∀ d ∈ done, d.trial = .failed) → (∀ d ∈ rest, d.trial = .notTried) →
    let x := s.slot n
    (c.trial = .settling → x.trialTimer = some 0 →
      exec (.settleHalfEnd n) s = .next (s.setSlot n { x with
        candidates := done ++ { c with trial := .counting } :: rest
        trialTimer := some (x.tuning.dwell / 2 * 27000) })) ∧
    (∀ k, c.trial = .counting →
      exec (.countHalfSymbolEnd n k false) s = .next (s.setSlot n { x with
        candidates := done ++ { c with errors := min (c.errors + k) 65535 } :: rest }) ∧
      exec (.countHalfSymbolEnd n k true) s = .next s) ∧
    (c.trial = .counting → x.trialTimer = some 0 → c.errors ≤ x.tuning.pilotLimit →
      exec (.countHalfEnd n) s = .next ((s.setSlot n { x with
        candidates := done ++ { c with trial := .passed } :: rest, window := some c.reference, acq := .fecWait
        phase := .ticks 8100000, trialTimer := none, syncRun := 0, uncRun := 0, wrongRun := 0, goodRun := 0 }).latchIf
          (decide (capturedEnergy x.tuning.captureThreshold x.span x.echo c.reference < x.total)) (.echoSpread n))) ∧
    (∀ d more, c.trial = .counting → x.trialTimer = some 0 → x.tuning.pilotLimit < c.errors → rest = d :: more →
      exec (.countHalfEnd n) s = .next (s.setSlot n { x with
        candidates := done ++ { c with trial := .failed } :: { d with trial := .settling, errors := 0 } :: more
        trialTimer := some (x.tuning.dwell / 2 * 27000) })) ∧
    (c.trial = .counting → x.trialTimer = some 0 → x.tuning.pilotLimit < c.errors → rest = [] →
      exec (.countHalfEnd n) s = .next ((s.setSlot n
        (windowFailed { x with candidates := done ++ [{ c with trial := .failed }] })).latch (.acqFailed n)))

/-- The tracking decision at a rebuild: the window, re-expressed by the main shift, moves to the top candidate exactly
when that differs and captures at least one eighth more; a decided move is pending until the boundary, where it is
cleared. The table takes the place of the old one, with its total eligible energy and the first entries of its ranking, up
to the candidate limit; a slot without a window gets none. The main shift is 0 for a main path within 4 samples of the
timing reference and else its signed delay; a re-expressed reference is kept in the delay range of the mode; the main path
is the strongest position, the earliest of equally strong ones. A measurement without a path leaves the timing reference
and the window and shifts by 0. No rebuild changes anything else of the slot. (Log entries 8, 15.) -/
def Obligations.WindowMovesByOneEighth : Prop :=
  (∀ (x : Slot) (arrivals : List Arrival) (main : Arrival), mainArrival arrivals = some main →
    let y := x.rebuild arrivals
    let table := echoTable x.detected arrivals
    let list := (ranking x.tuning.captureThreshold x.span table).take x.tuning.candidateLimit
    let shift := mainShiftOf x.timingRef main.position
    y.echo = table ∧ y.total = totalEnergy x.tuning.captureThreshold table ∧ y.candidates = list ∧
    y.mainShift = shift ∧ y.timingRef = some main.position ∧
    (x.window = none → y.window = none ∧ y.movePending = x.movePending) ∧
    ∀ w, x.window = some w →
      let r := clampDelay x.detected (w - shift)
      let e := capturedEnergy x.tuning.captureThreshold x.span table r
      (∀ top rest, list = top :: rest → top.reference ≠ r → e + e / 8 ≤ top.energy →
        y.window = some top.reference ∧ y.movePending = true) ∧
      ((∀ top rest, list = top :: rest → ¬(top.reference ≠ r ∧ e + e / 8 ≤ top.energy)) →
        y.window = some r ∧ y.movePending = x.movePending)) ∧
  (∀ (x : Slot) (arrivals : List Arrival),
    let y := x.rebuild arrivals
    y = { x with
      echo := y.echo, total := y.total, candidates := y.candidates, mainShift := y.mainShift, timingRef := y.timingRef
      window := y.window, movePending := y.movePending }) ∧
  (∀ reference position : Int,
    (-4 ≤ position - reference → position - reference ≤ 4 → mainShiftOf (some reference) position = 0) ∧
    ((position - reference < -4 ∨ 4 < position - reference) →
      mainShiftOf (some reference) position = position - reference)) ∧
  (∀ (d : Structure) (r : Int),
    (d.mode = .l → clampDelay (some d) r = if r < -4096 then -4096 else if 4095 < r then 4095 else r) ∧
    (d.mode = .s → clampDelay (some d) r = if r < -1024 then -1024 else if 1023 < r then 1023 else r)) ∧
  (∀ arrivals : List Arrival,
    let power := fun q : Int => (arrivals.map fun a => if a.position = q then a.power else 0).sum
    (mainArrival arrivals = none ↔ ∀ a ∈ arrivals, a.power = 0) ∧
    ∀ main, mainArrival arrivals = some main →
      0 < main.power ∧ power main.position = main.power ∧
      ∀ q, power q ≤ main.power ∧ (power q = main.power → main.position ≤ q)) ∧
  (∀ (x : Slot) (arrivals : List Arrival), (∀ a ∈ arrivals, a.power = 0) →
    (x.rebuild arrivals).echo = [] ∧ (x.rebuild arrivals).total = 0 ∧ (x.rebuild arrivals).candidates = [] ∧
    (x.rebuild arrivals).mainShift = 0 ∧
    (x.rebuild arrivals).timingRef = x.timingRef ∧ (x.rebuild arrivals).window = x.window ∧
    (x.rebuild arrivals).movePending = x.movePending) ∧
  (∀ (n : SlotId) (s : State), s.power = .locked → (s.slot n).movePending = true →
    exec (.windowMoveApplied n) s = .next (s.setSlot n { s.slot n with movePending := false }))

/-- A frame end in TRACK whose word is bad, in every order of word and rebuild: the table is rebuilt and the MER estimate
made, ECHO_SPREAD is latched when the chosen window leaves energy uncaptured, and the frame position advances. The
frequency offset is the nearest whole Hz, halves away from zero, clamped to ±250,000. The MER estimate is 450 without
error; otherwise at most 450, and i tenths of a dB or more exactly when the ratio reaches i − 1/2 tenths, in integers.
(Log entries 8, 11, 15.) -/
def Obligations.FrameEndRebuildsAndMeasures : Prop :=
  (∀ (n : SlotId) (milliHz : Int) (arrivals : List Arrival) (pp ep : Nat) (order : FrameOrder) (s : State),
    s.power = .locked → (s.slot n).acq = .track → (s.slot n).changePending = false →
    exec (.signallingFrameEnd n .bad milliHz arrivals pp ep order) s =
      .next ((s.setSlot n { ({ s.slot n with freqOffset := some (storedOffset milliHz) } : Slot).rebuild arrivals with
        mer := some (merOf pp ep), framePos := (s.slot n).framePos + 1, halfMade := none }).latchIf
          (({ s.slot n with freqOffset := some (storedOffset milliHz) } : Slot).rebuild arrivals).windowSpreads (.echoSpread n))) ∧
  ((∀ milliHz : Int,
    -250000 ≤ storedOffset milliHz ∧ storedOffset milliHz ≤ 250000 ∧
    (250000000 ≤ milliHz → storedOffset milliHz = 250000) ∧ (milliHz ≤ -250000000 → storedOffset milliHz = -250000) ∧
    (0 ≤ milliHz → milliHz ≤ 250000000 →
      milliHz - 500 < 1000 * storedOffset milliHz ∧ 1000 * storedOffset milliHz ≤ milliHz + 500) ∧
    storedOffset (-milliHz) = -storedOffset milliHz) ∧
  ∀ pp ep : Nat, merOf pp ep ≤ 450 ∧ merOf pp 0 = 450 ∧
    (0 < ep → ∀ i, 1 ≤ i → i ≤ 450 →
      (i ≤ merOf pp ep ↔ 10 ^ (2 * i - 1) * ep ^ 200 ≤ pp ^ 200)))

/-! ## Decoding and delivery (R84 to R96) -/

/-- A packet completed in FEC_WAIT moves the sync run alone, and the fourth right sync byte in a row enters TRACK; one
completed in HOLD is counted by its outcome and moves the good run, and the fourth good one recovers to TRACK. A packet
whose sync byte is wrong is uncorrectable whatever the decoder reports. -/
def Obligations.PacketsBeforeAndAfterTrack : Prop :=
  ∀ (n : SlotId) (report : DecoderReport) (p : Packet) (first : CtxId) (s : State), s.power = .locked →
    let x := s.slot n
    let tracking := fun y : Slot => { y with
      acq := .track, phase := .stopped, attempts := 0, backoff := 1, halfMade := none, changePending := false
      syncRun := 0, uncRun := 0, wrongRun := 0, goodRun := 0 }
    let result := exec (.packetCompletion n report p first) s
    (x.acq = .fecWait → p[0] ≠ 0x47 → result = .next (s.setSlot n { x with syncRun := 0 })) ∧
    (x.acq = .fecWait → p[0] = 0x47 → x.syncRun ≠ 3 →
      result = .next (s.setSlot n { x with syncRun := x.syncRun + 1 })) ∧
    (x.acq = .fecWait → p[0] = 0x47 → x.syncRun = 3 → result = .next (s.setSlot n (tracking x))) ∧
    (x.acq = .hold → (p[0] ≠ 0x47 ∨ report = .uncorrectable) →
      result = .next (s.setSlot n { x with
        goodRun := 0
        counters := { x.counters with uncorrectable := min (x.counters.uncorrectable + 1) 4294967295 } })) ∧
    (x.acq = .hold → p[0] = 0x47 → report = .clean →
      result = .next (s.setSlot n (if x.goodRun = 3 then tracking x else { x with goodRun := x.goodRun + 1 }))) ∧
    (∀ k, x.acq = .hold → p[0] = 0x47 → report = .corrected k →
      let y := { x with counters := { x.counters with
        corrected := min (x.counters.corrected + 1) 4294967295
        bytesCorrected := min (x.counters.bytesCorrected + k) 4294967295 } }
      result = .next (s.setSlot n (if x.goodRun = 3 then tracking y else { y with goodRun := x.goodRun + 1 })))

/-- Uncorrectable packets in TRACK: counted, the runs raised; a packet that completes the burst limit or the fourth wrong
sync byte in a row sends the slot to HOLD undelivered, with its captures ended; otherwise one with a wrong sync byte, or
under policy DROP, is discarded. Whether a packet with a right sync byte that completes the burst limit under MARK raises
packets delivered is a free value: R88 with R89 and R91 with R95 differ (log entry 33). -/
def Obligations.BadPacketsInTrack : Prop :=
  ∀ (n : SlotId) (report : DecoderReport) (p : Packet) (first : CtxId) (s : State), s.power = .locked →
    (s.slot n).acq = .track → (p[0] ≠ 0x47 ∨ report = .uncorrectable) →
    let x := s.slot n
    let wrong := if p[0] = 0x47 then 0 else x.wrongRun + 1
    let counted := { x.counters with uncorrectable := min (x.counters.uncorrectable + 1) 4294967295 }
    let withheld := if p[0] = 0x47 ∧ x.tuning.policy = .mark ∧ Config.countsWithheld = true
      then { counted with delivered := min (x.counters.delivered + 1) 4294967295 } else counted
    ∃ t, exec (.packetCompletion n report p first) s = .next t ∧
      ((x.tuning.burstLimit ≤ x.uncRun + 1 ∨ 4 ≤ wrong) → x.tuning.holdMs ≠ 0 →
        t.slot n = { x with
          acq := .hold, phase := .ticks (x.tuning.holdMs * 27000), halfMade := none, changePending := false
          syncRun := 0, uncRun := 0, wrongRun := 0, goodRun := 0, counters := withheld } ∧
        (∀ c, t.capture c = leftTrack n (s.capture c)) ∧
        t = { s with slots := s.slots.set n (t.slot n), capture0 := t.capture0, capture1 := t.capture1 }) ∧
      ((x.tuning.burstLimit ≤ x.uncRun + 1 ∨ 4 ≤ wrong) → x.tuning.holdMs = 0 →
        t.slot n = attemptStarted .sync 4050000 { x with
          attempts := 0
          counters := { withheld with lockLosses := min (x.counters.lockLosses + 1) 4294967295 } } ∧
        (∀ c, t.capture c = leftTrack n (s.capture c)) ∧
        t.events = latchEvent (.lockLost n) s.events ∧
        t = { s with
          slots := s.slots.set n (t.slot n), events := t.events, capture0 := t.capture0, capture1 := t.capture1 }) ∧
      (¬(x.tuning.burstLimit ≤ x.uncRun + 1 ∨ 4 ≤ wrong) → (p[0] ≠ 0x47 ∨ x.tuning.policy = .drop) →
        t = s.setSlot n { x with uncRun := x.uncRun + 1, wrongRun := wrong, counters := counted })

/-- A clean packet in TRACK is delivered: a null packet and one without a route are counted for the slot; a hit is counted
at its entry, and each egress of the entry gets one copy attempt whose outcome depends on that egress alone: a
stopped-discard, a drop counted at the entry and the egress and changing nothing else of it, or a buffer at the tail of
the sub-queue with the output PID in its header. A drop latches DROPPING of its egress, no other flag is touched, and the
alert cells follow the summary. Each running capture of the slot and the PID takes the packet as
CapturesCopyQualifyingPackets says, one context before the other (the order is the operand of log entry 28). -/
def Obligations.DeliveredPacketsAreRouted : Prop :=
  ∀ (n : SlotId) (p : Packet) (first : CtxId) (s : State), s.power = .locked → s.TablesCanonical →
    (s.slot n).acq = .track → 1 ≤ (s.slot n).tuning.burstLimit → p[0] = 0x47 →
    let c := (s.slot n).counters
    let delivered := min (c.delivered + 1) 4294967295
    let examined := fun (x : CaptureContext) (granted : Option BufferId) =>
      if (x.state = .active ∨ x.state = .suspended) ∧ x.slot = n ∧ x.pid = packetPid p then x.qualify granted p else x
    ∃ t, exec (.packetCompletion n .clean p first) s = .next t ∧
      t.capture first = examined (s.capture first) (s.allocate .capture) ∧
      t.capture (otherContext first) =
        examined (s.capture (otherContext first)) ((s.setCapture first (t.capture first)).allocate .capture) ∧
      (packetPid p = 8191 →
        t.slot n = { s.slot n with
          uncRun := 0, wrongRun := 0
          counters := { c with delivered := delivered, nulls := min (c.nulls + 1) 4294967295 } } ∧
        t = { s with slots := s.slots.set n (t.slot n), capture0 := t.capture0, capture1 := t.capture1 }) ∧
      (packetPid p ≠ 8191 → s.lookup n.val (packetPid p).toNat = none →
        t.slot n = { s.slot n with
          uncRun := 0, wrongRun := 0
          counters := { c with delivered := delivered, unrouted := min (c.unrouted + 1) 4294967295 } } ∧
        t = { s with slots := s.slots.set n (t.slot n), capture0 := t.capture0, capture1 := t.capture1 }) ∧
      (∀ i, packetPid p ≠ 8191 → s.lookup n.val (packetPid p).toNat = some i →
        t.slot n = { s.slot n with uncRun := 0, wrongRun := 0, counters := { c with delivered := delivered } } ∧
        (let drop := fun (e : Side) (d : Nat) =>
            if (s.route i).sends e ∧ (s.egress e).run = .running ∧ s.grant e (s.route i).cls = none
            then min (d + 1) 4294967295 else d
         t.route i = { s.route i with
           hits := min ((s.route i).hits + 1) 4294967295, drops := drop .b (drop .a (s.route i).drops) }) ∧
        (∀ j, j ≠ i → t.route j = s.route j) ∧
        (∀ e, (s.route i).sends e = false → t.egress e = s.egress e) ∧
        (∀ e, (s.route i).sends e = true → (s.egress e).run ≠ .running →
          t.egress e = { s.egress e with counters := { (s.egress e).counters with
            stoppedDiscards := min ((s.egress e).counters.stoppedDiscards + 1) 4294967295 } }) ∧
        (∀ e, (s.route i).sends e = true → (s.egress e).run = .running → s.grant e (s.route i).cls = none →
          t.egress e = { s.egress e with counters := (t.egress e).counters } ∧
          t.events.latched &&& flagMask (.dropping e) ≠ 0 ∧
          ((s.route i).cls = .ordinary → (t.egress e).counters = { (s.egress e).counters with
            ordinaryDrops := min ((s.egress e).counters.ordinaryDrops + 1) 4294967295 }) ∧
          ((s.route i).cls = .essential → (t.egress e).counters = { (s.egress e).counters with
            essentialDrops := min ((s.egress e).counters.essentialDrops + 1) 4294967295 })) ∧
        (∀ e id, (s.route i).sends e = true → (s.egress e).run = .running →
          s.grant e (s.route i).cls = some id →
          t.egress e = { s.egress e with queues := (s.egress e).queues.set n ((s.egress e).queues[n] ++
            [⟨id, n, s.time.stc, (s.route i).cls, (s.route i).correct, (s.route i).renumber,
              packetSetPid p ((s.route i).outPid e)⟩]) }) ∧
        (let drops := fun e =>
          (s.route i).sends e = true ∧ (s.egress e).run = .running ∧ s.grant e (s.route i).cls = none
         (t.events.latched.getLsbD 30 = true ↔ s.events.latched.getLsbD 30 = true ∨ drops .a) ∧
         (t.events.latched.getLsbD 32 = true ↔ s.events.latched.getLsbD 32 = true ∨ drops .b) ∧
         (∀ k, k ≠ 30 → k ≠ 32 → t.events.latched.getLsbD k = s.events.latched.getLsbD k) ∧
         AlertsFollow s.events t.events) ∧
        t = { s with
          slots := s.slots.set n (t.slot n), routes := t.routes, egressA := t.egressA, egressB := t.egressB
          events := t.events, capture0 := t.capture0, capture1 := t.capture1 })

/-- The other packets that TRACK delivers. A corrected packet is counted with its repaired bytes and then delivered as a
clean one is. Under policy MARK an uncorrectable packet with a right sync byte that completes no burst is counted, raises
the uncorrectable run and is delivered with its error indicator set and no other bit changed. -/
def Obligations.CorrectedAndMarkedPacketsAreDelivered : Prop :=
  (∀ (n : SlotId) (k : Nat) (p : Packet) (first : CtxId) (s : State), s.power = .locked → (s.slot n).acq = .track →
    p[0] = 0x47 →
    exec (.packetCompletion n (.corrected k) p first) s =
      exec (.packetCompletion n .clean p first) (s.setSlot n { s.slot n with
        counters := { (s.slot n).counters with
          corrected := min ((s.slot n).counters.corrected + 1) 4294967295
          bytesCorrected := min ((s.slot n).counters.bytesCorrected + k) 4294967295 } })) ∧
  (∀ (n : SlotId) (p : Packet) (first : CtxId) (s : State), s.power = .locked → (s.slot n).acq = .track →
    p[0] = 0x47 → (s.slot n).tuning.policy = .mark → (s.slot n).uncRun + 1 < (s.slot n).tuning.burstLimit →
    ∃ u, exec (.packetCompletion n .clean (packetMark p) first) (s.setSlot n { s.slot n with
        counters := { (s.slot n).counters with
          uncorrectable := min ((s.slot n).counters.uncorrectable + 1) 4294967295 } }) = .next u ∧
      exec (.packetCompletion n .uncorrectable p first) s =
        .next (u.setSlot n { u.slot n with uncRun := (s.slot n).uncRun + 1 })) ∧
  ∀ p : Packet, packetError (packetMark p) = true ∧ (packetMark p)[1].extractLsb' 0 7 = p[1].extractLsb' 0 7 ∧
    ∀ i : Fin 188, i ≠ 1 → (packetMark p)[i] = p[i]

/-- The class rule and the order of allocation: an ORDINARY copy is refused at or below the reserve, an ESSENTIAL one at a
free count of 0; a granted buffer is free, in the lowest bank that lends to the owner and has a free buffer, and the
lowest free one there. After a buffer has left its list its bank passes to the pending owner when it was draining and is
now wholly free, and suspended captures resume when the CAPTURE pool has a free buffer; nothing else changes.
(Log entry 17.) -/
def Obligations.BuffersAreAllocatedAndFreed : Prop :=
  (∀ (s : State) (e : Side), s.poolFree (egressOwner e) ≤ (s.egress e).reserve → s.grant e .ordinary = none) ∧
  (∀ (s : State) (e : Side), s.poolFree (egressOwner e) = 0 → s.grant e .essential = none) ∧
  (∀ (s : State) (e : Side), (s.egress e).reserve < s.poolFree (egressOwner e) →
    s.grant e .ordinary = s.allocate (egressOwner e)) ∧
  (∀ (s : State) (e : Side), 1 ≤ s.poolFree (egressOwner e) → s.grant e .essential = s.allocate (egressOwner e)) ∧
  (∀ (s : State) (o : Owner) (id : BufferId), s.allocate o = some id →
    s.banks[id.bank].owner = o ∧ s.banks[id.bank].state = .active ∧ id ∉ s.heldBuffers ∧ id.index < 128 ∧
    (∀ b : Fin 8, b < id.bank → s.banks[b].owner = o → s.banks[b].state = .active → s.bankFree b = 0) ∧
    (∀ i, i < id.index → (⟨id.bank, i⟩ : BufferId) ∈ s.heldBuffers)) ∧
  (∀ (s : State) (o : Owner), s.allocate o = none ↔ s.poolFree o = 0) ∧
  ∀ (s : State) (id : BufferId),
    let t := s.afterFree [id]
    t = { s with banks := t.banks, capture0 := t.capture0, capture1 := t.capture1 } ∧
    (∀ b : Fin 8, b ≠ id.bank → t.banks[b] = s.banks[b]) ∧
    (s.banks[id.bank].state = .active → t.banks[id.bank] = s.banks[id.bank]) ∧
    (∀ o, s.banks[id.bank].state = .draining o →
      t.banks[id.bank] = if s.bankFree id.bank = 128 then ⟨o, .active⟩ else s.banks[id.bank]) ∧
    ∀ c, t.capture c =
      if (s.capture c).state = .suspended ∧ 1 ≤ t.poolFree .capture then { s.capture c with state := .active }
      else s.capture c

/-! ## The Route Table (R97 to R108) -/

/-- ROUTE_ADD of one description: a bad value, a held key without replace and a collision change nothing and name their
cause; a replacement is written at its own index and a new entry at the lowest invalid one, each with its counters
zeroed; a full table answers FULL. An entry count of 0 or above 3 gets BAD_ARG. Several descriptions are handled in order,
each seeing what the ones before it did and each with a result record of its own; the status is OK when all are OK, else the
first other one. What each check tests: the first failing item of R102; the valid entry that holds the key; another valid
entry that sends the same PID on the same egress. What a written entry holds. (Log entries 7, 18, 23.) -/
def Obligations.RouteAddWritesOneEntry : Prop :=
  (∀ (l : Side) (tag : Byte) (d d1 d2 : RouteDesc) (s : State), s.Serves l →
    (∀ count : Byte, count.toNat = 0 ∨ 3 < count.toNat →
      ∃ t, exec (.routeAdd l tag count d d1 d2) s = .next t ∧ Replied s t l tag 0x30 .badArg [] ∧
        SameButAgent s t) ∧
    (∀ count : Byte, 1 ≤ count.toNat → count.toNat ≤ 3 →
      let r := s.addRoutes ([d, d1, d2].take count.toNat)
      ∃ t st, exec (.routeAdd l tag count d d1 d2) s = .next t ∧ t = { r.1 with agent := t.agent } ∧
        Replied s t l tag 0x30 st (r.2.flatMap fun x => [statusCode x.status, BitVec.ofNat 8 x.index, x.detail]) ∧
        (st = .ok ↔ ∀ x ∈ r.2, x.status = .ok) ∧
        ∀ before x after, r.2 = before ++ x :: after → (∀ y ∈ before, y.status = .ok) → x.status ≠ .ok →
          st = x.status) ∧
    ((s.addRoutes [d]).1 = (s.addRoute d).1 ∧ (s.addRoutes [d, d1]).1 = ((s.addRoute d).1.addRoute d1).1 ∧
      (s.addRoutes [d, d1, d2]).1 = (((s.addRoute d).1.addRoute d1).1.addRoute d2).1) ∧
    ∃ t, exec (.routeAdd l tag 1 d d1 d2) s = .next t ∧
      (∀ k, firstFault 1 (descFaults d) = some k →
        Replied s t l tag 0x30 .badArg [2, 0, BitVec.ofNat 8 k] ∧ SameButAgent s t) ∧
      (firstFault 1 (descFaults d) = none →
        (∀ i, s.lookup d.slot.toNat d.pid.toNat = some i → d.replace = 0 →
          Replied s t l tag 0x30 .conflict [4, BitVec.ofNat 8 i, 0] ∧ SameButAgent s t) ∧
        ∀ own, own = s.lookup d.slot.toNat d.pid.toNat → (own.isSome = true → d.replace = 1) →
          (∀ i, s.collision own (entryOf d) .a = some i →
            Replied s t l tag 0x30 .conflict [4, BitVec.ofNat 8 i, 1] ∧ SameButAgent s t) ∧
          (∀ i, s.collision own (entryOf d) .a = none → s.collision own (entryOf d) .b = some i →
            Replied s t l tag 0x30 .conflict [4, BitVec.ofNat 8 i, 2] ∧ SameButAgent s t) ∧
          (s.collision own (entryOf d) .a = none → s.collision own (entryOf d) .b = none →
            (∀ i, own = some i →
              Replied s t l tag 0x30 .ok [0, BitVec.ofNat 8 i, 1] ∧
              t = { s.setRoute i (entryOf d) with agent := t.agent }) ∧
            (∀ i, own = none → i < 256 → (s.route i).valid = false → (∀ j, j < i → (s.route j).valid = true) →
              Replied s t l tag 0x30 .ok [0, BitVec.ofNat 8 i, 0] ∧
              t = { s.setRoute i (entryOf d) with agent := t.agent }) ∧
            (own = none → (∀ i, i < 256 → (s.route i).valid = true) →
              Replied s t l tag 0x30 .full [5, 0, 0] ∧ SameButAgent s t)))) ∧
  (∀ d : RouteDesc,
    (∀ k, firstFault 1 (descFaults d) = some k ↔ DescBad d k ∧ ∀ j, j < k → ¬DescBad d j) ∧
    (firstFault 1 (descFaults d) = none ↔ ∀ k, ¬DescBad d k) ∧
    ((∀ k, ¬DescBad d k) →
      let e := entryOf d
      e.valid = true ∧ e.slot.val = d.slot.toNat ∧ e.pid.toNat = d.pid.toNat ∧
      e.toA = d.egressSet.getLsbD 0 ∧ e.toB = d.egressSet.getLsbD 1 ∧
      e.outA.map BitVec.toNat = (if d.outA = 0xFFFF then none else some d.outA.toNat) ∧
      e.outB.map BitVec.toNat = (if d.outB = 0xFFFF then none else some d.outB.toNat) ∧
      e.cls = (if d.cls = 1 then .essential else .ordinary) ∧ e.correct = (d.correct == 1) ∧
      e.renumber = (d.renumber == 1) ∧ e.hits = 0 ∧ e.drops = 0)) ∧
  (∀ r : RouteEntry, r.sends .a = r.toA ∧ r.sends .b = r.toB ∧ r.outPid .a = r.outA.getD r.pid ∧
    r.outPid .b = r.outB.getD r.pid) ∧
  (∀ (u : State) (slot pid : Nat),
    let holds := fun i => i < 256 ∧ (u.route i).valid = true ∧ (u.route i).slot.val = slot ∧ (u.route i).pid.toNat = pid
    (u.lookup slot pid = none ↔ ∀ i, ¬holds i) ∧ ∀ i, u.lookup slot pid = some i → holds i) ∧
  (∀ (u : State) (own : Option Nat) (e : RouteEntry) (side : Side),
    let meets := fun i => i < 256 ∧ some i ≠ own ∧ (u.route i).valid = true ∧ (u.route i).sends side = true ∧
      (u.route i).outPid side = e.outPid side
    (u.collision own e side = none ↔ e.sends side = false ∨ ∀ i, ¬meets i) ∧
    ∀ i, u.collision own e side = some i → e.sends side = true ∧ meets i) ∧
  (∀ (u : State) (d : RouteDesc),
    (∀ k, DescBad d k → (∀ j, j < k → ¬DescBad d j) → u.addRoute d = (u, ⟨.badArg, 0, BitVec.ofNat 8 k⟩)) ∧
    ((∀ k, ¬DescBad d k) →
      let own := u.lookup d.slot.toNat d.pid.toNat
      let hitA := u.collision own (entryOf d) .a
      let hitB := u.collision own (entryOf d) .b
      (∀ i, own = some i → d.replace = 0 → u.addRoute d = (u, ⟨.conflict, i, 0⟩)) ∧
      ((own.isSome = true → d.replace = 1) →
        (∀ i, hitA = some i → u.addRoute d = (u, ⟨.conflict, i, 1⟩)) ∧
        (∀ i, hitA = none → hitB = some i → u.addRoute d = (u, ⟨.conflict, i, 2⟩)) ∧
        (∀ i, hitA = none → hitB = none → own = some i → u.addRoute d = (u.setRoute i (entryOf d), ⟨.ok, i, 1⟩)) ∧
        (∀ i, hitA = none → hitB = none → own = none → i < 256 → (u.route i).valid = false →
          (∀ j, j < i → (u.route j).valid = true) → u.addRoute d = (u.setRoute i (entryOf d), ⟨.ok, i, 0⟩)) ∧
        (hitA = none → hitB = none → own = none → (∀ i, i < 256 → (u.route i).valid = true) →
          u.addRoute d = (u, ⟨.full, 0, 0⟩))))) ∧
  ∀ (u : State) (d : RouteDesc) (ds : List RouteDesc),
    u.addRoutes [] = (u, []) ∧
    u.addRoutes (d :: ds) = (((u.addRoute d).1.addRoutes ds).1, (u.addRoute d).2 :: ((u.addRoute d).1.addRoutes ds).2)

/-- ROUTE_CLEAR makes every entry invalid and keeps its other fields; the reply holds the number that were valid; the
next new entry then takes index 0. (Log entries 7, 18.) -/
def Obligations.RouteClearInvalidatesEveryEntry : Prop :=
  ∀ (l : Side) (tag : Byte) (s : State), s.Serves l → s.TablesCanonical →
    ∃ t, exec (.routeClear l tag) s = .next t ∧
      Replied s t l tag 0x32 .ok (beBytes 2 ((List.range 256).countP fun i => (s.route i).valid)) ∧
      (∀ i, t.route i = { s.route i with valid := false }) ∧
      ((List.range 256).find? fun i => !(t.route i).valid) = some 0 ∧
      t = { s with routes := t.routes, agent := t.agent }

/-- ROUTE_REMOVE of one key makes the entry that has it invalid and keeps its other fields, or answers NOT_FOUND; a key
count of 0 or above 8 gets BAD_ARG. Several keys are handled in order, and the status is OK when each was removed, else
NOT_FOUND. ROUTE_READ returns the entries from the start index, at most three and none above
255, and changes nothing. The 17 bytes of a record; that bits 3 and 2 of its byte 1 read 0 is the model's choice (log
entry 34). (Log entries 7, 18, 23.) -/
def Obligations.RouteRemoveAndRead : Prop :=
  (∀ (l : Side) (tag : Byte) (s : State), s.Serves l →
    (∀ (count : Byte) (keys : Vector RouteKey 8), count.toNat = 0 ∨ 8 < count.toNat →
      ∃ t, exec (.routeRemove l tag count keys) s = .next t ∧ Replied s t l tag 0x31 .badArg [] ∧
        SameButAgent s t) ∧
    (∀ (count : Byte) (keys : Vector RouteKey 8), 1 ≤ count.toNat → count.toNat ≤ 8 →
      let r := s.removeRoutes (keys.toList.take count.toNat)
      ∃ t st, exec (.routeRemove l tag count keys) s = .next t ∧ t = { r.1 with agent := t.agent } ∧
        Replied s t l tag 0x31 st (r.2.flatMap fun x => [statusCode x.status, BitVec.ofNat 8 x.index]) ∧
        ((∀ x ∈ r.2, x.status = .ok) → st = .ok) ∧ ((∃ x ∈ r.2, x.status ≠ .ok) → st = .notFound) ∧
        r.1 = (keys.toList.take count.toNat).foldl (fun u k => (u.removeRoute k).1) s) ∧
    (∀ keys : Vector RouteKey 8, ∃ t, exec (.routeRemove l tag 1 keys) s = .next t ∧
      (∀ i, s.lookup keys[0].slot.toNat keys[0].pid.toNat = some i →
        Replied s t l tag 0x31 .ok [0, BitVec.ofNat 8 i] ∧
        t = { s.setRoute i { s.route i with valid := false } with agent := t.agent }) ∧
      (s.lookup keys[0].slot.toNat keys[0].pid.toNat = none →
        Replied s t l tag 0x31 .notFound [6, 0] ∧ SameButAgent s t)) ∧
    (∀ start : Byte, ∃ t, exec (.routeRead l tag start) s = .next t ∧ SameButAgent s t ∧
      (start.toNat ≤ 253 → Replied s t l tag 0x33 .ok ([3] ++ entryBytes start.toNat (s.route start.toNat) ++
        entryBytes (start.toNat + 1) (s.route (start.toNat + 1)) ++
        entryBytes (start.toNat + 2) (s.route (start.toNat + 2)))) ∧
      (start.toNat = 254 → Replied s t l tag 0x33 .ok
        ([2] ++ entryBytes 254 (s.route 254) ++ entryBytes 255 (s.route 255))) ∧
      (start.toNat = 255 → Replied s t l tag 0x33 .ok ([1] ++ entryBytes 255 (s.route 255))))) ∧
  (∀ (i : Nat) (r : RouteEntry),
    entryBytes i r = beBytes 1 i ++
      [(if r.valid then 0x80 else 0) ||| (if r.cls = .essential then 0x40 else 0) ||| (if r.correct then 0x20 else 0) |||
        (if r.renumber then 0x10 else 0) ||| (if r.toB then 2 else 0) ||| (if r.toA then 1 else 0)] ++
      beBytes 2 (8192 * r.slot.val + r.pid.toNat) ++ beBytes 2 ((r.outA.map BitVec.toNat).getD 65535) ++
      beBytes 2 ((r.outB.map BitVec.toNat).getD 65535) ++ beBytes 4 r.hits ++ beBytes 4 r.drops ++ [0]) ∧
  (∀ (u : State) (k : RouteKey),
    (∀ i, u.lookup k.slot.toNat k.pid.toNat = some i →
      u.removeRoute k = (u.setRoute i { u.route i with valid := false }, ⟨.ok, i, 0⟩)) ∧
    (u.lookup k.slot.toNat k.pid.toNat = none → u.removeRoute k = (u, ⟨.notFound, 0, 0⟩))) ∧
  ∀ (u : State) (k : RouteKey) (ks : List RouteKey),
    u.removeRoutes [] = (u, []) ∧
    u.removeRoutes (k :: ks) =
      (((u.removeRoute k).1.removeRoutes ks).1, (u.removeRoute k).2 :: ((u.removeRoute k).1.removeRoutes ks).2)

/-! ## Packet Memory (R117 to R135) -/

/-- BANK_ASSIGN by the bank's record, in the order of R125: DRAINING is BUSY, the present owner stays, a fully free bank
changes owner at once, and a bank that holds buffers begins to drain. BANK_READ reports the Bank Map and the pools and
changes nothing. The two bytes of a bank record, and what capacity, free count and holding of a pool count; that bits 3 and 2
of a record's first byte read 0 is the model's choice (log entry 34). (Log entries 7, 17, 22, 23.) -/
def Obligations.BanksChangeOwner : Prop :=
  (∀ (l : Side) (tag : Byte) (s : State), s.Serves l →
    (∀ (bank owner : Byte) (b : Fin 8) (o : Owner), bank.toNat = b.val → ownerOf owner = some o →
      ∃ t, exec (.bankAssign l tag bank owner) s = .next t ∧
        (∀ o', s.banks[b].state = .draining o' →
          Replied s t l tag 0x40 .busy (bank :: s.bankRecord b) ∧ SameButAgent s t) ∧
        (s.banks[b].state = .active → s.banks[b].owner = o →
          Replied s t l tag 0x40 .ok (bank :: s.bankRecord b) ∧ SameButAgent s t) ∧
        (s.banks[b].state = .active → s.banks[b].owner ≠ o → s.bankFree b = 128 →
          Replied s t l tag 0x40 .ok (bank :: t.bankRecord b) ∧
          t = { s with
            banks := s.banks.set b ⟨o, .active⟩
            capture0 := t.capture0, capture1 := t.capture1, agent := t.agent } ∧
          ∀ c, t.capture c =
            if (s.capture c).state = .suspended ∧ 1 ≤ t.poolFree .capture
            then { s.capture c with state := .active } else s.capture c) ∧
        (s.banks[b].state = .active → s.banks[b].owner ≠ o → s.bankFree b < 128 →
          Replied s t l tag 0x40 .ok (bank :: t.bankRecord b) ∧
          t = { s with banks := s.banks.set b ⟨s.banks[b].owner, .draining o⟩, agent := t.agent })) ∧
    (∀ (bank owner : Byte) (b : Fin 8), bank.toNat = b.val → 3 < owner.toNat →
      ∃ t, exec (.bankAssign l tag bank owner) s = .next t ∧
        Replied s t l tag 0x40 .badArg (bank :: s.bankRecord b) ∧ SameButAgent s t) ∧
    (∀ bank owner : Byte, 7 < bank.toNat → ∃ t data, exec (.bankAssign l tag bank owner) s = .next t ∧
      Replied s t l tag 0x40 .badArg (bank :: data) ∧ t = { s with agent := t.agent, freeCount := t.freeCount }) ∧
    ∃ t, exec (.bankRead l tag) s = .next t ∧ SameButAgent s t ∧
      Replied s t l tag 0x41 .ok
        (s.bankRecord 0 ++ s.bankRecord 1 ++ s.bankRecord 2 ++ s.bankRecord 3 ++ s.bankRecord 4 ++ s.bankRecord 5 ++
          s.bankRecord 6 ++ s.bankRecord 7 ++
          beBytes 2 (s.poolCapacity .egressA) ++ beBytes 2 (s.poolFree .egressA) ++ beBytes 2 (s.poolHolding .egressA) ++
          beBytes 2 (s.poolCapacity .egressB) ++ beBytes 2 (s.poolFree .egressB) ++ beBytes 2 (s.poolHolding .egressB) ++
          beBytes 2 (s.poolCapacity .capture) ++ beBytes 2 (s.poolFree .capture) ++ beBytes 2 (s.poolHolding .capture))) ∧
  [ownerCode .none, ownerCode .egressA, ownerCode .egressB, ownerCode .capture] = [0, 1, 2, 3] ∧
  ∀ s : State,
    (∀ b : Fin 8,
      s.bankFree b = 128 - (s.heldBuffers.countP fun id => id.bank == b) ∧
      (s.banks[b].state = .active →
        s.bankRecord b = [BitVec.ofNat 8 (64 * ownerCode s.banks[b].owner), BitVec.ofNat 8 (s.bankFree b)]) ∧
      ∀ o, s.banks[b].state = .draining o →
        s.bankRecord b =
          [BitVec.ofNat 8 (64 * ownerCode s.banks[b].owner + 16 * ownerCode o + 3), BitVec.ofNat 8 (s.bankFree b)]) ∧
    ∀ o : Owner,
      let lent := (List.finRange 8).filter fun b => s.banks[b].owner == o && s.banks[b].state == .active
      s.poolCapacity o = 128 * lent.length ∧ s.poolFree o = (lent.map s.bankFree).sum ∧
      s.poolHolding o = s.heldBuffers.countP fun id => s.banks[id.bank].owner == o

/-! ## Egresses (R136 to R156) -/

/-- EGRESS_SET: its checks in order, then the present settings written with the reserve clamped, and nothing else of the
egress. (Log entry 7.) -/
def Obligations.EgressSetWritesPresentSettings : Prop :=
  ∀ (l : Side) (tag : Byte) (p : EgressSetParams) (s : State), s.Serves l →
    ∃ t, exec (.egressSet l tag p) s = .next t ∧
      ((1 < p.egress.toNat ∨ 32 ≤ p.present.toNat) → Replied s t l tag 0x50 .badArg [0] ∧ SameButAgent s t) ∧
      (∀ e, sideOf p.egress = some e → p.present.toNat < 32 →
        let x := s.egress e
        let rateBad := p.present.getLsbD 0 = true ∧
          ¬(p.rate.toNat = 0 ∨ 2000000 ≤ p.rate.toNat ∧ p.rate.toNat ≤ 72000000)
        let policyBad := p.present.getLsbD 1 = true ∧ 1 < p.policy.toNat
        let ageBad := p.present.getLsbD 3 = true ∧ ¬(1 ≤ p.ageLimit.toNat ∧ p.ageLimit.toNat ≤ 1000)
        let rateBusy := p.present.getLsbD 0 = true ∧ p.rate.toNat ≠ x.rate ∧ x.run ≠ .stopped
        (rateBad → Replied s t l tag 0x50 .badArg [1] ∧ SameButAgent s t) ∧
        (¬rateBad → policyBad → Replied s t l tag 0x50 .badArg [2] ∧ SameButAgent s t) ∧
        (¬rateBad → ¬policyBad → ageBad → Replied s t l tag 0x50 .badArg [4] ∧ SameButAgent s t) ∧
        (¬rateBad → ¬policyBad → ¬ageBad → rateBusy → Replied s t l tag 0x50 .busy [1] ∧ SameButAgent s t) ∧
        (¬rateBad → ¬policyBad → ¬ageBad → ¬rateBusy →
          let y := { x with
            rate := if p.present.getLsbD 0 then p.rate.toNat else x.rate
            policy := if p.present.getLsbD 1 then (if p.policy = 0 then .rotating else .fixed) else x.policy
            reserve := if p.present.getLsbD 2 then min 1024 p.reserve.toNat else x.reserve
            ageLimit := if p.present.getLsbD 3 then p.ageLimit.toNat else x.ageLimit
            offset := if p.present.getLsbD 4 then p.offset.toInt else x.offset }
          Replied s t l tag 0x50 .ok
            (beBytes 4 y.rate ++ [schedCode y.policy] ++ beBytes 2 y.reserve ++ beBytes 2 y.ageLimit ++
              beSigned 3 y.offset ++ [egressStateCode y.run] ++
              flagByte (p.present.getLsbD 2 && decide (1024 < p.reserve.toNat))) ∧
          t = { s.setEgress e y with agent := t.agent }))

/-- START by the table of R140: a STOPPED egress with a rate and an ACTIVE bank starts from a cleared accumulator,
Continuity Table, pointer and assembly. STOP of a RUNNING egress: the pacer stops, the sub-queues are emptied and their
buffers freed, the stream ends with one END cell (a partial cell filled with 0xFF, the newest complete cell, or a cell of
fill), and the egress enters STOPPING; the stream's earlier bytes stay. A draining bank that this frees wholly passes to its
pending owner, no other bank changes, and suspended captures resume when the CAPTURE pool has a free buffer. In another state
STOP changes nothing. (Log entries 7, 17, 22, 23.) -/
def Obligations.StartAndStopTheStream : Prop :=
  (∀ (l : Side) (tag egress : Byte) (s : State), s.Serves l →
    (∀ e, sideOf egress = some e → ∃ t, exec (.start l tag egress) s = .next t ∧
      ((s.egress e).run = .stopped → (s.egress e).rate ≠ 0 → s.poolCapacity (egressOwner e) ≠ 0 →
        Replied s t l tag 0x51 .ok [1] ∧
        t = { s.setEgress e { s.egress e with
          acc := 0, continuity := [], pointer := 5, assembly := ⟨[], 255, false⟩, run := .running } with
            agent := t.agent }) ∧
      ((s.egress e).run = .stopped → ((s.egress e).rate = 0 ∨ s.poolCapacity (egressOwner e) = 0) →
        Replied s t l tag 0x51 .badState [0] ∧ SameButAgent s t) ∧
      ((s.egress e).run = .running → Replied s t l tag 0x51 .badState [1] ∧ SameButAgent s t) ∧
      ((s.egress e).run = .stopping → Replied s t l tag 0x51 .busy [2] ∧ SameButAgent s t)) ∧
    (1 < egress.toNat → ∃ t data, exec (.start l tag egress) s = .next t ∧
      Replied s t l tag 0x51 .badArg data ∧ t = { s with agent := t.agent, freeCount := t.freeCount })) ∧
  (∀ (l : Side) (tag egress : Byte) (s : State), s.Serves l → 1 < egress.toNat →
    ∃ t data, exec (.stop l tag egress) s = .next t ∧
      Replied s t l tag 0x51 .badArg data ∧ t = { s with agent := t.agent, freeCount := t.freeCount }) ∧
  (∀ (l : Side) (tag egress : Byte) (e : Side) (s : State), s.Serves l → sideOf egress = some e →
    ∃ t, exec (.stop l tag egress) s = .next t ∧
      ((s.egress e).run ≠ .running →
        Replied s t l tag 0x51 .ok [egressStateCode (s.egress e).run] ∧ SameButAgent s t) ∧
      ((s.egress e).run = .running →
        let x := s.egress e
        let y := t.egress e
        Replied s t l tag 0x51 .ok [2] ∧
        y.run = .stopping ∧ y.dueStamps = [] ∧ (∀ n : SlotId, y.queues[n] = []) ∧
        y.acc = x.acc ∧ y.pointer = x.pointer ∧ y.continuity = x.continuity ∧ y.counters = x.counters ∧
        y.rate = x.rate ∧ y.policy = x.policy ∧ y.reserve = x.reserve ∧ y.ageLimit = x.ageLimit ∧
        y.offset = x.offset ∧
        (∀ c cs, x.assembly.bytes = c :: cs → x.txBuffer.length < 4 →
          y.txBuffer = x.txBuffer ++ [⟨x.assembly.bytes ++ List.replicate (60 - x.assembly.bytes.length) 0xFF,
            x.assembly.startOffset, true⟩] ∧ y.assembly = ⟨[], 255, false⟩) ∧
        (∀ c cs, x.assembly.bytes = c :: cs → 4 ≤ x.txBuffer.length →
          y.txBuffer = x.txBuffer ∧
          y.assembly = ⟨x.assembly.bytes ++ List.replicate (60 - x.assembly.bytes.length) 0xFF,
            x.assembly.startOffset, true⟩) ∧
        (∀ cells c, x.assembly.bytes = [] → x.txBuffer = cells ++ [c] →
          y.txBuffer = cells ++ [{ c with isEnd := true }] ∧ y.assembly = x.assembly) ∧
        (x.assembly.bytes = [] → x.txBuffer = [] →
          y.txBuffer = [⟨List.replicate 60 0xFF, 255, true⟩] ∧ y.assembly = x.assembly) ∧
        (∀ b : Fin 8, (s.banks[b].state = .active → t.banks[b] = s.banks[b]) ∧
          ∀ o, s.banks[b].state = .draining o →
            ((∃ id ∈ x.buffers, id.bank = b) → t.bankFree b = 128 → t.banks[b] = ⟨o, .active⟩) ∧
            (((∀ id ∈ x.buffers, id.bank ≠ b) ∨ t.bankFree b ≠ 128) → t.banks[b] = s.banks[b])) ∧
        (∀ c, t.capture c =
          if (s.capture c).state = .suspended ∧ 1 ≤ t.poolFree .capture then { s.capture c with state := .active }
          else s.capture c) ∧
        t = { s.setEgress e y with
          banks := t.banks, capture0 := t.capture0, capture1 := t.capture1, agent := t.agent }))

/-- EGRESS_READ changes nothing, begins every reply with the egress and page bytes, and refuses an egress other than A and
B, a page above 3 and, on page 3, a start PID above 8191. Page 1 holds for each sub-queue its length and the arrival stamp
of its head, then the pool; page 3 the start PID, the number of entries and the entries, two to a byte. That a sub-queue
length takes two bytes is the model's choice (log entry 24). (Log entries 7, 22, 23, 25.) -/
def Obligations.EgressReadReturnsAPage : Prop :=
  (∀ (l : Side) (tag egress page : Byte) (pid : BitVec 16) (s : State), s.Serves l →
    ∃ t, exec (.egressRead l tag egress page pid) s = .next t ∧
      t = { s with agent := t.agent, freeCount := t.freeCount } ∧
      ((1 < egress.toNat ∨ 3 < page.toNat ∨ (page = 3 ∧ 8191 < pid.toNat)) →
        Replied s t l tag 0x52 .badArg [egress, page]) ∧
      (∀ e, sideOf egress = some e →
        let x := s.egress e
        (page = 0 → x.assembly.isEnd = false →
          Replied s t l tag 0x52 .ok ([egress, page] ++
            (beBytes 4 x.rate ++ [schedCode x.policy] ++ beBytes 2 x.reserve ++ beBytes 2 x.ageLimit ++
              beSigned 3 x.offset) ++ [egressStateCode x.run] ++ beBytes 5 x.acc ++ beBytes 1 x.pointer.val ++
            beBytes 1 x.assembly.bytes.length ++ [x.assembly.startOffset] ++ beBytes 1 x.txBuffer.length ++ [0])) ∧
        (page = 0 → x.assembly.isEnd = true →
          ∃ fill : Byte, Replied s t l tag 0x52 .ok ([egress, page] ++
            (beBytes 4 x.rate ++ [schedCode x.policy] ++ beBytes 2 x.reserve ++ beBytes 2 x.ageLimit ++
              beSigned 3 x.offset) ++ [egressStateCode x.run] ++ beBytes 5 x.acc ++ beBytes 1 x.pointer.val ++
            [fill] ++ [x.assembly.startOffset] ++ beBytes 1 x.txBuffer.length ++ [1])) ∧
        (page = 1 → Replied s t l tag 0x52 .ok ([egress, page] ++ s.queuePage e)) ∧
        (page = 2 → Replied s t l tag 0x52 .ok ([egress, page] ++
          beBytes 4 x.counters.sent ++ beBytes 4 x.counters.nulls ++ beBytes 4 x.counters.ordinaryDrops ++
          beBytes 4 x.counters.essentialDrops ++ beBytes 4 x.counters.stale ++ beBytes 4 x.counters.stoppedDiscards ++
          beBytes 4 x.counters.corrections)) ∧
        (page = 3 → pid.toNat ≤ 8191 → Replied s t l tag 0x52 .ok ([egress, page] ++ x.continuityPage pid)))) ∧
  (∀ (s : State) (e : Side),
    let x := s.egress e
    let o := match e with
      | .a => Owner.egressA
      | .b => Owner.egressB
    s.queuePage e =
      ((List.finRange 6).flatMap fun n =>
        beBytes 2 x.queues[n].length ++ beBytes 4 ((x.queues[n].head?.map fun b => b.arrival.toNat).getD 0)) ++
      beBytes 2 (s.poolCapacity o) ++ beBytes 2 (s.poolFree o) ++ beBytes 2 (s.poolHolding o)) ∧
  ∀ (x : Egress) (pid : BitVec 16), pid.toNat ≤ 8191 →
    let count := min 96 (8192 - pid.toNat)
    let nibble := fun k => if k < count then (x.continuityAt (BitVec.ofNat 13 (pid.toNat + k))).toNat else 0
    x.continuityPage pid = beBytes 2 pid.toNat ++ beBytes 1 count ++
      (List.range ((count + 1) / 2)).map fun k => BitVec.ofNat 8 (16 * nibble (2 * k) + nibble (2 * k + 1))

/-- A due slot appends exactly one packet of 188 bytes to the stream: a fresh head buffer's packet, processed, and its
buffer freed; with every sub-queue empty the null packet of R148. A stale head is discarded with STALE first: its buffer is
freed, the pointer names its slot, and the due slot goes on from there. The packet completes 4 cells when the fill was 52
or more and 3 otherwise, of 60 bytes each: the first keeps its start offset or takes the fill as one, in the others and in
the partial cell that remains no packet starts. That the cells join a transmit buffer of any length is the model's choice: it
has no upper bound of its own (log entry 19). (Log entry 9.) -/
def Obligations.DueSlotAppendsOnePacket : Prop :=
  ∀ (e : Side) (td : Stamp) (later : List Stamp) (s : State), s.power = .locked →
    (s.egress e).run = .running → (s.egress e).dueStamps = td :: later → (s.egress e).assembly.bytes.length < 60 →
    let x := s.egress e
    ∃ t, exec (.dueSlot e) s = .next t ∧
      (t.egress e).assembly.bytes.length < 60 ∧
      (t.egress e).acc = x.acc ∧ (t.egress e).run = .running ∧ (t.egress e).rate = x.rate ∧
      (t.egress e).dueStamps = later ∧ (t.egress e).policy = x.policy ∧ (t.egress e).reserve = x.reserve ∧
      (t.egress e).ageLimit = x.ageLimit ∧ (t.egress e).offset = x.offset ∧
      t = { s.setEgress e (t.egress e) with
        banks := t.banks, events := t.events, capture0 := t.capture0, capture1 := t.capture1 } ∧
      (let fill := x.assembly.bytes.length
       ∃ cells : List StreamCell, (t.egress e).txBuffer = x.txBuffer ++ cells ∧
         cells.length = (if 52 ≤ fill then 4 else 3) ∧ (∀ c ∈ cells, c.payload.length = 60 ∧ c.isEnd = false) ∧
         cells.map StreamCell.startOffset =
           (if x.assembly.startOffset = 255 then BitVec.ofNat 8 fill else x.assembly.startOffset) ::
             List.replicate (cells.length - 1) 255 ∧
         (t.egress e).assembly.bytes.length = (fill + 188) % 60 ∧ (t.egress e).assembly.startOffset = 255 ∧
         (t.egress e).assembly.isEnd = false) ∧
      ((∀ n : SlotId, x.queues[n] = []) →
        (t.egress e).streamBytes =
          x.streamBytes ++ ([0x47, 0x1F, 0xFF, 0x10] ++ List.replicate 184 0xFF) ∧
        (t.egress e).counters = { x.counters with nulls := min (x.counters.nulls + 1) 4294967295 } ∧
        (t.egress e).pointer = x.pointer ∧ (t.egress e).continuity = x.continuity ∧
        (t.egress e).queues = x.queues ∧ t = s.setEgress e (t.egress e)) ∧
      (∀ n b rest, x.select = some (n, b, rest) → (td - b.arrival).toNat ≤ x.ageLimit * 27000 →
        (t.egress e).streamBytes = x.streamBytes ++ (x.outgoing td b).toList ∧
        (t.egress e).counters = { x.counters with
          sent := min (x.counters.sent + 1) 4294967295
          corrections := min (x.counters.corrections + (corrects b).toNat) 4294967295 } ∧
        (t.egress e).pointer = n ∧ (t.egress e).continuity = (x.renumberTable b).continuity ∧
        (t.egress e).queues = x.queues.set n rest ∧ t = (s.setEgress e (t.egress e)).afterFree [b.id]) ∧
      (∀ n b rest, x.select = some (n, b, rest) → x.ageLimit * 27000 < (td - b.arrival).toNat →
        exec (.dueSlot e) s = exec (.dueSlot e)
          (((s.setEgress e { x with
            pointer := n, queues := x.queues.set n rest
            counters := { x.counters with stale := min (x.counters.stale + 1) 4294967295 } }).latch
              (.stale e)).afterFree [b.id]))

/-- Renumbering and correction: a payload-carrying packet with the renumber flag takes its entry and advances it, another
repeats the last counter; the reference advances by residence and offset modulo its range and is written with an
extension below 300; every byte that is not named stays. Selection: under FIXED the lowest-numbered sub-queue that holds a
buffer, under ROTATING the first one after the pointer in cyclic order; none when all are empty, and one whenever any
holds a buffer. -/
def Obligations.DueSlotSelectsAndRewrites : Prop :=
  ((∀ (x : Egress) (b : Buffer), x.continuity.Pairwise (fun p q => p.1 < q.1) →
    (b.renumber = false → x.renumbered b = b.packet ∧ (x.renumberTable b).continuity = x.continuity) ∧
    (b.renumber = true →
      packetCc (x.renumbered b) =
        (if packetHasPayload b.packet then x.continuityAt (packetPid b.packet)
         else x.continuityAt (packetPid b.packet) - 1) ∧
      (∀ i : Fin 188, i ≠ 3 → (x.renumbered b)[i] = b.packet[i]) ∧
      (x.renumbered b)[3].extractLsb' 4 4 = b.packet[3].extractLsb' 4 4 ∧
      ∀ pid, (x.renumberTable b).continuityAt pid =
        if packetHasPayload b.packet ∧ pid = packetPid b.packet then x.continuityAt pid + 1
        else x.continuityAt pid)) ∧
  (∀ (d : Nat) (offset : Int) (p : Packet), d ≤ 27000000 → -8388608 ≤ offset → offset ≤ 8388607 →
    let v : Int := (packetClockBase p).toNat * 300 + (packetClockExt p).toNat
    clockValue (correctPacket d offset p) = (v + d + offset) % 2576980377600 ∧
    (packetClockExt (correctPacket d offset p)).toNat < 300 ∧
    (∀ i : Fin 188, i < 6 ∨ 11 < i → (correctPacket d offset p)[i] = p[i]) ∧
    (packetClockBits (correctPacket d offset p)).extractLsb' 9 6 = (packetClockBits p).extractLsb' 9 6) ∧
  (∀ p : Packet, packetHasClockRef p = true ↔
    (packetAfc p = 2 ∨ packetAfc p = 3) ∧ 7 ≤ p[4].toNat ∧ p[5].getLsbD 4 = true) ∧
  ∀ (x : Egress) (td : Stamp) (b : Buffer),
    ((b.correct = false ∨ packetError b.packet = true ∨ packetHasClockRef b.packet = false) →
      x.outgoing td b = x.renumbered b) ∧
    (b.correct = true → packetError b.packet = false → packetHasClockRef b.packet = true →
      x.outgoing td b = correctPacket (td - b.arrival).toNat x.offset (x.renumbered b))) ∧
  (∀ x : Egress,
    ((∀ n : SlotId, x.queues[n] = []) → x.select = none) ∧
    (∀ n : SlotId, x.queues[n] ≠ [] → x.select ≠ none) ∧
    ∀ n b rest, x.select = some (n, b, rest) → x.queues[n] = b :: rest ∧
      (x.policy = .fixed → ∀ m : SlotId, m < n → x.queues[m] = []) ∧
      (x.policy = .rotating → ∃ j : Fin 6, n = x.pointer + 1 + j ∧
        ∀ k : Fin 6, k < j → x.queues[x.pointer + 1 + k] = []))

/-! ## Links (R157 to R168) -/

/-- The arbiter's choice in the order of R164, with the cell on the line, the sequence number and what the cell leaves
behind. An alert cell leaves no alert pending on its link, and the other link's as it was. A stream cell gives its room to
a waiting END cell, and the last one of a STOPPING egress stops it. A reply gives room to its link's queue: an IDLE Agent
then takes a waiting request of an eligible link. For a capture cell: the next fragment; after fragment 3 the freed
buffer, with the drain test of its bank and the resumption of suspended captures; or a record gone with CAPTURE_END (R171,
R189, R193). (Log entries 4, 17, 21.) -/
def Obligations.ArbiterSendsByPriority : Prop :=
  ∀ (l : Side) (s : State), s.power = .locked → (s.link l).positionDue = true →
    let k := s.link l
    let x := s.egress l
    let alert := match l with
      | .a => s.events.pendingA
      | .b => s.events.pendingB
    let idleAgent := s.agent.interval.isSome = true ∨ (s.agent.requestsA = [] ∧ s.agent.requestsB = [])
    let sent := fun (b0 b1 : Byte) (payload : List Byte) => s.setLink l { k with
      positionDue := false, seq := k.seq + 1, line := [b0, b1, k.seq, headerCheck b0 b1 k.seq] ++ payload }
    ∃ t, exec (.cellPosition l) s = .next t ∧ (t.link l).positionDue = false ∧
      (∀ c rest, x.txBuffer = c :: rest →
        let u := sent (if c.isEnd then 0x11 else 0x10) c.startOffset c.payload
        (x.assembly.isEnd = false →
          t = u.setEgress l { x with
            txBuffer := rest
            run := if x.run = .stopping ∧ rest = [] ∧ x.assembly.bytes = [] then .stopped else x.run }) ∧
        (x.assembly.isEnd = true →
          t = u.setEgress l { x with
            txBuffer := rest ++ [⟨x.assembly.bytes, x.assembly.startOffset, true⟩]
            assembly := ⟨[], 255, false⟩ })) ∧
      (x.txBuffer = [] → alert = true →
        t = { sent 0x40 0 (padTo 60 (summaryRecord s.events :: eventBytes s.events.latched)) with
          events := match l with
            | .a => { s.events with pendingA := false }
            | .b => { s.events with pendingB := false } }) ∧
      (∀ r rest, x.txBuffer = [] → alert = false → s.agent.replies l = r :: rest →
        let u := { sent 0x20 r.tag ([r.code, r.tag, statusCode r.status, r.summary] ++ r.data) with
          agent := s.agent.setReplies l rest }
        let eligible := fun m => s.agent.requests m ≠ [] ∧ (u.agent.replies m).length < 8
        (idleAgent → t = u) ∧
        (s.agent.interval = none → ¬eligible .a → ¬eligible .b → t = u) ∧
        ∀ m p more, s.agent.interval = none → eligible m →
          (eligible (otherSide m) → s.agent.lastServed = otherSide m) → s.agent.requests m = p :: more →
          t = u.taken m p more) ∧
      (∀ c, x.txBuffer = [] → alert = false → s.agent.replies l = [] → (s.capture c).offers l = true →
        ((s.capture (otherContext c)).offers l = false ∨ k.capturePointer = otherContext c) →
        let z := s.capture c
        let u := s.setLink l { k with
          positionDue := false, seq := k.seq + 1, capturePointer := c
          line := [0x30, contextByte c, k.seq, headerCheck 0x30 (contextByte c) k.seq] ++ z.cell }
        (∀ id i p rest, z.pending = .packet id i p :: rest →
          z.cell = BitVec.ofNat 8 z.headFragment :: (beBytes 2 i ++ [0] ++
            padTo 56 ((p.toList.drop (56 * z.headFragment)).take 56)) ∧
          (z.headFragment ≠ 3 → t = u.setCapture c { z with headFragment := z.headFragment + 1 }) ∧
          (z.headFragment = 3 →
            t = { u with banks := t.banks, capture0 := t.capture0, capture1 := t.capture1 } ∧
            (∀ b : Fin 8, (b ≠ id.bank ∨ s.banks[b].state = .active) → t.banks[b] = s.banks[b]) ∧
            (∀ o, s.banks[id.bank].state = .draining o →
              t.banks[id.bank] = if t.bankFree id.bank = 128 then ⟨o, .active⟩ else s.banks[id.bank]) ∧
            t.capture c = { z with
              pending := rest, headFragment := 0
              state := if z.state = .suspended ∧ 1 ≤ t.poolFree .capture then .active else z.state } ∧
            t.capture (otherContext c) = { s.capture (otherContext c) with
              state := if (s.capture (otherContext c)).state = .suspended ∧ 1 ≤ t.poolFree .capture then .active
                else (s.capture (otherContext c)).state })) ∧
        (∀ captured missed round rest, z.pending = .roundEnd captured missed round :: rest →
          z.cell = padTo 60 ([255, 0, 0, 0, 6] ++ beBytes 4 captured ++ beBytes 4 missed ++ beBytes 4 round ++ [0]) ∧
          t = { u.setCapture c { z with pending := rest } with events := latchEvent (.captureEnd c) s.events }) ∧
        (∀ r captured missed round truncated rest,
          z.pending = .endRecord r captured missed round truncated :: rest →
          z.cell = padTo 60 ([255, 0, 0, 0, endReasonCode r] ++ beBytes 4 captured ++ beBytes 4 missed ++
            beBytes 4 round ++ [if truncated then 1 else 0]) ∧
          t = { u.setCapture c { z with pending := rest, state := .idle } with
            events := latchEvent (.captureEnd c) s.events })) ∧
      (x.txBuffer = [] → alert = false → s.agent.replies l = [] →
        (s.capture .c0).offers l = false → (s.capture .c1).offers l = false →
        t = s.setLink l { k with positionDue := false, line := List.replicate 64 0 })

/-- The header check: the header of a request, and the detection of every single-bit error in a passing header. -/
def Obligations.HeaderCheckDetectsSingleBitErrors : Prop :=
  headerCheck 0x80 0x00 0x00 = 0x0B ∧ headerCheck 0 0 0 = 0 ∧
  ∀ (h : BitVec 32) (i : Nat), i < 32 → wordPasses h = true → wordPasses (h ^^^ (1 <<< i)) = false

/-- Delineation outside SYNC, and the incoming signal: the first passing window fixes the boundary; five passing headers
enter SYNC; a failing one or a loss of signal in PRESYNC returns to HUNT; a loss in SYNC keeps the boundary and is counted
for each full 64 ticks: the tick that makes 64 makes one failing header due, and a return of the signal drops the
remainder. A window or a header without a signal or in another state, a second loss, and a count that is not due change
nothing (log entry 3). (Log entries 4, 6, 20.) -/
def Obligations.DelineationFindsTheBoundary : Prop :=
  ∀ (l : Side) (s : State), s.power = .locked →
    let k := s.link l
    (∀ h, k.signal = true → k.delin = .hunt →
      (wordPasses h = true → exec (.huntWindow l h) s =
        .next (s.setLink l { k with delin := .presync, boundary := true, goodRun := 0 })) ∧
      (wordPasses h = false → exec (.huntWindow l h) s = .next s)) ∧
    (∀ h, (k.signal = false ∨ k.delin ≠ .hunt) → exec (.huntWindow l h) s = .next s) ∧
    (∀ h, (k.signal = false ∨ k.delin ≠ .presync) → exec (.presyncHeader l h) s = .next s) ∧
    (k.signal = false → exec (.lossOfSignal l) s = .next s) ∧
    ((k.delin ≠ .sync ∨ k.lossDue = 0) → exec (.lossFailureCount l) s = .next s) ∧
    (∃ t, exec .stcTick s = .next t ∧
      (k.signal = false → k.delin = .sync → k.lossTicks < 63 →
        t.link l = { k with lossTicks := k.lossTicks + 1, positionDue := (t.link l).positionDue }) ∧
      (k.signal = false → k.delin = .sync → 63 ≤ k.lossTicks →
        t.link l = { k with
          lossTicks := 0, lossDue := k.lossDue + 1, positionDue := (t.link l).positionDue }) ∧
      ((k.signal = true ∨ k.delin ≠ .sync) →
        t.link l = { k with positionDue := (t.link l).positionDue })) ∧
    (∀ h, k.signal = true → k.delin = .presync →
      (wordPasses h = true → k.goodRun ≠ 4 → exec (.presyncHeader l h) s =
        .next (s.setLink l { k with goodRun := k.goodRun + 1 })) ∧
      (wordPasses h = true → k.goodRun = 4 → exec (.presyncHeader l h) s =
        .next (s.setLink l { k with delin := .sync, goodRun := 5, badRun := 0 })) ∧
      (wordPasses h = false → exec (.presyncHeader l h) s =
        .next (s.setLink l { k with delin := .hunt, boundary := false, goodRun := 0 }))) ∧
    (k.signal = true →
      (k.delin = .presync → exec (.lossOfSignal l) s = .next (s.setLink l { k with
        signal := false, lossTicks := 0, delin := .hunt, boundary := false, goodRun := 0 })) ∧
      (k.delin ≠ .presync →
        exec (.lossOfSignal l) s = .next (s.setLink l { k with signal := false, lossTicks := 0 }))) ∧
    exec (.signalReturn l) s = .next (s.setLink l { k with signal := true, lossTicks := 0 }) ∧
    (k.delin = .sync → 0 < k.lossDue → k.badRun ≠ 3 → exec (.lossFailureCount l) s = .next (s.setLink l { k with
      lossDue := k.lossDue - 1, badRun := k.badRun + 1
      counters := { k.counters with headerErrors := min (k.counters.headerErrors + 1) 4294967295 } })) ∧
    (k.delin = .sync → 0 < k.lossDue → k.badRun = 3 → exec (.lossFailureCount l) s = .next ((s.setLink l { k with
      lossTicks := 0, lossDue := 0, badRun := 0, delin := .hunt, boundary := false
      counters := { k.counters with headerErrors := min (k.counters.headerErrors + 1) 4294967295 } }).latch
        (.linkDown l)))

/-- Cells in SYNC: a failing header is counted, and the fourth in a row takes the link to HUNT with LINK_DOWN; a passing
one returns the bad run to 0, and the cell is handled by its kind: idle without effect, unknown counted, a request joining
the queue while the Agent is busy or discarded with REQ_DISCARD when four wait. (Log entry 7.) -/
def Obligations.CellsInSync : Prop :=
  ∀ (l : Side) (cell : CellBytes) (s : State), s.power = .locked → (s.link l).signal = true →
    (s.link l).delin = .sync →
    let k := s.link l
    let errors := { k.counters with headerErrors := min (k.counters.headerErrors + 1) 4294967295 }
    let passes := headerCheck cell[0] cell[1] cell[2] = cell[3]
    let kind := cell[0].toNat / 16
    let result := exec (.syncCell l cell) s
    (¬passes → k.badRun ≠ 3 →
      result = .next (s.setLink l { k with badRun := k.badRun + 1, counters := errors })) ∧
    (¬passes → k.badRun = 3 →
      result = .next ((s.setLink l { k with
        badRun := 0, delin := .hunt, boundary := false, lossTicks := 0, lossDue := 0, counters := errors }).latch
          (.linkDown l))) ∧
    (passes → kind = 0 → result = .next (s.setLink l { k with badRun := 0 })) ∧
    (passes → kind ≠ 0 → kind ≠ 8 →
      result = .next (s.setLink l { k with
        badRun := 0
        counters := { k.counters with unknownCells := min (k.counters.unknownCells + 1) 4294967295 } })) ∧
    (∀ q, passes → kind = 8 → s.agent.interval = some q → (s.agent.requests l).length < 4 →
      result = .next { s.setLink l { k with badRun := 0 } with
        agent := s.agent.setRequests l (s.agent.requests l ++ [cell.toList.drop 4]) }) ∧
    (∀ q, passes → kind = 8 → s.agent.interval = some q → 4 ≤ (s.agent.requests l).length →
      result = .next ((s.setLink l { k with
        badRun := 0
        counters := { k.counters with
          requestDiscards := min (k.counters.requestDiscards + 1) 4294967295 } }).latch (.reqDiscard l)))

/-! ## The Management Agent (R176 to R186) -/

/-- A REQUEST cell whose payload is a request written out acts as that request's arrival: the payload reads back as the
request, with its code and its tag, and the cell has the effect of the request's own row. A REQUEST cell with any payload,
one that no row writes included, is that payload's arrival: the Agent takes it at once when it is IDLE, no request of the
link waits and the reply queue has room; otherwise it waits or is discarded. A payload is read as a request of the code in its
first byte. (Log entry 7.) -/
def Obligations.RequestsReadBackFromTheirPayload : Prop :=
  (∀ p : List Byte, requestCode (requestOf p) = byteAt p 0 ∧
    (byteAt p 0 ∉ knownCodes → requestOf p = .unknown (byteAt p 0))) ∧
  (∀ (l : Side) (cell : CellBytes) (s : State), s.power = .locked → (s.link l).signal = true →
    (s.link l).delin = .sync → headerCheck cell[0] cell[1] cell[2] = cell[3] → cell[0].toNat / 16 = 8 →
    let p := cell.toList.drop 4
    let u := s.setLink l { s.link l with badRun := 0 }
    (s.Serves l → exec (.syncCell l cell) s = .next (u.taken l p [])) ∧
    (¬s.Serves l → ∃ t, exec (.syncCell l cell) s = .next t ∧ RequestWaits u t l p)) ∧
  ∀ (tag : Byte) (r : Request), (∀ code, r = .unknown code → code ∉ knownCodes) →
    (requestOf (requestPayload tag r) = r ∧ byteAt (requestPayload tag r) 0 = requestCode r ∧
      byteAt (requestPayload tag r) 1 = tag ∧ (requestPayload tag r).length = 60) ∧
    ∀ (l : Side) (cell : CellBytes) (s : State), s.power = .locked → (s.link l).signal = true →
      (s.link l).delin = .sync → headerCheck cell[0] cell[1] cell[2] = cell[3] → cell[0].toNat / 16 = 8 →
      cell.toList.drop 4 = requestPayload tag r →
      let u := s.setLink l { s.link l with badRun := 0 }
      exec (.syncCell l cell) s = .next (u.requestRow l tag r) ∧
      (r = .describe → exec (.syncCell l cell) s = exec (.describe l tag) u) ∧
      (r = .frontRead → exec (.syncCell l cell) s = exec (.frontRead l tag) u) ∧
      ∀ p, r = .slotSet p → exec (.syncCell l cell) s = exec (.slotSet l tag p) u

/-- The end of the service interval: with no eligible link the Agent is IDLE; otherwise it takes the head request of the
eligible link, of the link not served last when both are eligible, and puts one reply with its code and tag on that link
in the same event. The state after it is what the request's own rule makes of the state, with that reply; and where the
payload is one of a request row that waited alone, it is the state that this row gives when it is served at once.
(Log entries 4, 7.) -/
def Obligations.AgentAlternatesBetweenLinks : Prop :=
  ∀ s : State, s.power = .locked → s.agent.interval = some 0 →
    let eligible := fun l => s.agent.requests l ≠ [] ∧ (s.agent.replies l).length < 8
    ∃ t, exec .serviceIntervalEnd s = .next t ∧
      (¬eligible .a → ¬eligible .b → t = { s with agent := { s.agent with interval := none } }) ∧
      (∀ l p rest, eligible l → (eligible (otherSide l) → s.agent.lastServed = otherSide l) →
        s.agent.requests l = p :: rest →
        t.agent.requests l = rest ∧ t.agent.requests (otherSide l) = s.agent.requests (otherSide l) ∧
        t.agent.lastServed = l ∧ t.agent.interval = some 64 ∧
        t.agent.replies (otherSide l) = s.agent.replies (otherSide l) ∧
        t = ({ s with agent := { s.agent with interval := none } } : State).taken l p rest ∧
        ∃ r, t.agent.replies l = s.agent.replies l ++ [r] ∧ r.code = byteAt p 0 ∧ r.tag = byteAt p 1 ∧
          r.data.length = 56 ∧ r.summary = summaryRecord t.events) ∧
      ∀ c l tag r, rowOf c = some (l, tag, r) → eligible l →
        (eligible (otherSide l) → s.agent.lastServed = otherSide l) → s.agent.requests l = [requestPayload tag r] →
        exec c { s with agent := { s.agent.setRequests l [] with interval := none } } = .next t

/-- A code that is not listed is answered with UNKNOWN and data of zeros, and changes nothing. A request of any request row
that arrives while the service interval runs waits, as its payload, at the tail of its link's queue, and a fifth is
discarded with REQ_DISCARD. The same holds at an IDLE Agent whose reply queue for that link is full, or for whose link a
request waits already; with the payload queued, an IDLE Agent takes the head request of an eligible link. Before PLL lock no
request is received: a request row then changes nothing (R1, log entry 30). (Log entry 7.) -/
def Obligations.RequestsWaitOrAreUnknown : Prop :=
  (∀ (l : Side) (tag code : Byte) (s : State), s.Serves l → code ∉ knownCodes →
    ∃ t, exec (.unknownRequest l tag code) s = .next t ∧ Replied s t l tag code .unknown [] ∧ SameButAgent s t) ∧
  (∀ (c : Instr) (l : Side) (tag : Byte) (r : Request) (q : Nat) (s : State), rowOf c = some (l, tag, r) →
    s.power = .locked → s.agent.interval = some q →
    ((s.agent.requests l).length < 4 →
      exec c s = .next { s with
        agent := s.agent.setRequests l (s.agent.requests l ++ [requestPayload tag r]) }) ∧
    (4 ≤ (s.agent.requests l).length →
      exec c s = .next ((s.setLink l { s.link l with
        counters := { (s.link l).counters with
          requestDiscards := min ((s.link l).counters.requestDiscards + 1) 4294967295 } }).latch (.reqDiscard l)))) ∧
  (∀ (c : Instr) (l : Side) (tag : Byte) (r : Request) (s : State), rowOf c = some (l, tag, r) → s.power = .locked →
    ¬s.Serves l → ∃ t, exec c s = .next t ∧ RequestWaits s t l (requestPayload tag r)) ∧
  ∀ (c : Instr) (l : Side) (tag : Byte) (r : Request) (s : State), rowOf c = some (l, tag, r) → s.power ≠ .locked →
    exec c s = .next s

/-- DESCRIBE returns the fixed description, the link of arrival and the reference; it changes nothing.
(Log entries 7, 24.) -/
def Obligations.DescribeReturnsThePart : Prop :=
  ∀ (l : Side) (tag : Byte) (s : State), s.Serves l →
    ∃ t, exec (.describe l tag) s = .next t ∧ SameButAgent s t ∧
      Replied s t l tag 0x01 .ok
        [0x17, 0xFE, 1, 6, 2, 2, 1, 0, 8, 128, 2, (if l = .a then 0 else 1),
          (if s.time.reference = .crystal then 0 else 1)]

/-- The datapath reset: what each block keeps and loses by the table of R185. A RUNNING egress is stopped as by STOP: its
stream ends with one END cell and its sub-queues are emptied. (Log entries 7, 13, 17.) -/
def Obligations.DatapathResetByBlock : Prop :=
  ∀ (l : Side) (tag : Byte) (s : State), s.Serves l → s.UnitLaw →
    ∃ t, exec (.reset l tag) s = .next t ∧ Replied s t l tag 0x02 .ok [] ∧ summaryRecord t.events = 0 ∧
      t.power = s.power ∧ t.time = s.time ∧ t.rf0 = s.rf0 ∧ t.rf1 = s.rf1 ∧ t.aux = s.aux ∧ t.routes = s.routes ∧
      t.freeCount = s.freeCount ∧ t.pending = s.pending ∧
      (∀ n, t.slot n = { switchedOff (s.slot n) with
        lastFailure := .none, counters := ⟨0, 0, 0, 0, 0, 0, 0, 0⟩ }) ∧
      t.heldBuffers = [] ∧
      (∀ b : Fin 8, t.banks[b] =
        match s.banks[b].state with
        | .active => s.banks[b]
        | .draining o => ⟨o, .active⟩) ∧
      (∀ e, (t.egress e).counters = ⟨0, 0, 0, 0, 0, 0, 0⟩ ∧
        (t.egress e).rate = (s.egress e).rate ∧ (t.egress e).policy = (s.egress e).policy ∧
        (t.egress e).reserve = (s.egress e).reserve ∧ (t.egress e).ageLimit = (s.egress e).ageLimit ∧
        (t.egress e).offset = (s.egress e).offset ∧ (t.egress e).continuity = (s.egress e).continuity ∧
        (t.egress e).pointer = (s.egress e).pointer ∧
        ((s.egress e).run = .running → (t.egress e).run = .stopping ∧ StreamEnded (s.egress e) (t.egress e) ∧
          (t.egress e).acc = (s.egress e).acc ∧ (t.egress e).dueStamps = [] ∧
          ∀ n : SlotId, (t.egress e).queues[n] = []) ∧
        ((s.egress e).run ≠ .running → t.egress e = { s.egress e with counters := ⟨0, 0, 0, 0, 0, 0, 0⟩ })) ∧
      (∀ k, t.link k = { s.link k with counters := ⟨0, 0, 0⟩ }) ∧
      (∀ c, t.capture c = { s.capture c with state := .idle, pending := [], headFragment := 0 }) ∧
      t.events = { s.events with latched := 0, pendingA := false, pendingB := false } ∧
      t.snapshot = { s.snapshot with valid := false }

/-! ## Events, statistics and captures (R187 to R198) -/

/-- A latch sets its flag and no other; the summary's change from 0 to 1 makes an alert cell pending on each link whose
alerts are ON, and a latch under a summary of 1 makes none. The numbers of the 45 flags, and the summary: the OR of the
flags both latched and enabled. -/
def Obligations.LatchMakesAlertsPending : Prop :=
  (∀ n : SlotId, flagNumber (.acqFailed n) = 5 * n.val ∧ flagNumber (.lockLost n) = 5 * n.val + 1 ∧
    flagNumber (.mismatch n) = 5 * n.val + 2 ∧ flagNumber (.echoSpread n) = 5 * n.val + 3 ∧
    flagNumber (.paramChange n) = 5 * n.val + 4) ∧
  [EventFlag.dropping .a, .stale .a, .dropping .b, .stale .b, .linkDown .a, .reqDiscard .a, .linkDown .b, .reqDiscard .b,
    .overload .rf0, .gainLimit .rf0, .overload .rf1, .gainLimit .rf1, .mastFault, .captureEnd .c0,
    .captureEnd .c1].map flagNumber = [30, 31, 32, 33, 34, 35, 36, 37, 38, 39, 40, 41, 42, 43, 44] ∧
  (∀ (f : EventFlag) (k : Nat), (flagMask f).getLsbD k = true ↔ k = flagNumber f) ∧
  (∀ u : EventUnit, summary u = true ↔ ∃ k, k < 45 ∧ u.latched.getLsbD k = true ∧ u.enabled.getLsbD k = true) ∧
  ∀ (f : EventFlag) (u : EventUnit),
    let v := latchEvent f u
    v.latched = u.latched ||| flagMask f ∧ v.enabled = u.enabled ∧ v.alertA = u.alertA ∧ v.alertB = u.alertB ∧
    (summary u = false → summary v = true →
      v.pendingA = (u.pendingA || u.alertA) ∧ v.pendingB = (u.pendingB || u.alertB)) ∧
    ((summary u = true ∨ summary v = false) → v.pendingA = u.pendingA ∧ v.pendingB = u.pendingB) ∧
    flagNumber f < 45 ∧ v.latched.getLsbD (flagNumber f) = true ∧
    ∀ g, flagNumber g = flagNumber f → g = f

/-- STATUS reads the latched flags, the enables, the summary record and the alert settings, then clears the flags named;
when the summary returns to 0 the pending alert cells are withdrawn. The bits of the summary record: the summary, then the OR
of the reported flags of each group. An event set is sent as a number of 6 bytes. (Log entry 7.) -/
def Obligations.StatusReadsThenClears : Prop :=
  (∀ u : EventUnit,
    let reported := fun lo hi => ∃ k, lo ≤ k ∧ k < hi ∧ u.latched.getLsbD k = true ∧ u.enabled.getLsbD k = true
    ((summaryRecord u).getLsbD 0 = true ↔ reported 0 45) ∧ ((summaryRecord u).getLsbD 1 = true ↔ reported 0 30) ∧
    ((summaryRecord u).getLsbD 2 = true ↔ reported 30 34) ∧ ((summaryRecord u).getLsbD 3 = true ↔ reported 34 38) ∧
    ((summaryRecord u).getLsbD 4 = true ↔ reported 38 43) ∧ ((summaryRecord u).getLsbD 5 = true ↔ reported 43 45) ∧
    (summaryRecord u).getLsbD 6 = false ∧ (summaryRecord u).getLsbD 7 = false) ∧
  (∀ set : BitVec 45, eventBytes set = beBytes 6 set.toNat) ∧
  ∀ (l : Side) (tag : Byte) (clear : BitVec 48) (s : State), s.Serves l →
    ∃ t, exec (.status l tag clear) s = .next t ∧
      Replied s t l tag 0x03 .ok
        (eventBytes s.events.latched ++ eventBytes s.events.enabled ++ [summaryRecord s.events] ++
          flagByte s.events.alertA ++ flagByte s.events.alertB) ∧
      t = { s with events := t.events, agent := t.agent } ∧
      (∀ k, k < 45 → t.events.latched.getLsbD k = (s.events.latched.getLsbD k && !clear.getLsbD k)) ∧
      t.events.enabled = s.events.enabled ∧ t.events.alertA = s.events.alertA ∧ t.events.alertB = s.events.alertB ∧
      (summary s.events = true → summary t.events = false →
        t.events.pendingA = false ∧ t.events.pendingB = false) ∧
      (summary t.events = summary s.events →
        t.events.pendingA = s.events.pendingA ∧ t.events.pendingB = s.events.pendingB) ∧
      (clear = 0 → SameButAgent s t)

/-- ALERT_CONFIG replaces the enable set and both alert settings; a summary that becomes 1 makes alert cells pending, one
that becomes 0 withdraws them, and a link set OFF loses its own; a setting other than OFF and ON changes nothing.
(Log entries 7, 23.) -/
def Obligations.AlertConfigReplacesTheEnables : Prop :=
  ∀ (l : Side) (tag : Byte) (enable : BitVec 48) (a b : Byte) (s : State), s.Serves l →
    ∃ t, exec (.alertConfig l tag enable a b) s = .next t ∧
      ((1 < a.toNat ∨ 1 < b.toNat) → Replied s t l tag 0x04 .badArg [] ∧ SameButAgent s t) ∧
      (a.toNat ≤ 1 → b.toNat ≤ 1 →
        Replied s t l tag 0x04 .ok (eventBytes (enable.setWidth 45) ++ [a, b]) ∧
        t = { s with events := t.events, agent := t.agent } ∧
        t.events.latched = s.events.latched ∧ t.events.enabled = enable.setWidth 45 ∧
        t.events.alertA = (a == 1) ∧ t.events.alertB = (b == 1) ∧
        (summary s.events = false → summary t.events = true →
          (t.events.pendingA = (a == 1)) ∧ (t.events.pendingB = (b == 1))) ∧
        (summary s.events = true → summary t.events = false →
          t.events.pendingA = false ∧ t.events.pendingB = false) ∧
        (summary t.events = summary s.events →
          t.events.pendingA = (s.events.pendingA && a == 1) ∧ t.events.pendingB = (s.events.pendingB && b == 1)))

/-- STATS_SNAPSHOT copies the 68 live counters and, with clear, zeros them in the same moment; STATS_READ returns 14 of a
valid snapshot and changes nothing. The numbering of the 68, by slot, egress and link. (Log entries 7, 23.) -/
def Obligations.SnapshotCopiesTheLiveCounters : Prop :=
  ∀ (l : Side) (tag : Byte) (s : State), s.Serves l →
    (∃ t, exec (.statsSnapshot l tag 0) s = .next t ∧ Replied s t l tag 0x05 .ok [] ∧
      t = { s with snapshot := ⟨s.liveCounters, true⟩, agent := t.agent }) ∧
    (∃ t, exec (.statsSnapshot l tag 1) s = .next t ∧ Replied s t l tag 0x05 .ok [] ∧
      t.snapshot = ⟨s.liveCounters, true⟩ ∧ t.liveCounters = List.replicate 68 0 ∧
      (∀ n, t.slot n = { s.slot n with counters := ⟨0, 0, 0, 0, 0, 0, 0, 0⟩ }) ∧
      (∀ e, t.egress e = { s.egress e with counters := ⟨0, 0, 0, 0, 0, 0, 0⟩ }) ∧
      (∀ k, t.link k = { s.link k with counters := ⟨0, 0, 0⟩ }) ∧
      t = { s with
        slots := t.slots, egressA := t.egressA, egressB := t.egressB, linkA := t.linkA, linkB := t.linkB
        snapshot := t.snapshot, agent := t.agent }) ∧
    (∀ clear : Byte, 1 < clear.toNat → ∃ t, exec (.statsSnapshot l tag clear) s = .next t ∧
      Replied s t l tag 0x05 .badArg [] ∧ SameButAgent s t) ∧
    s.liveCounters.length = 68 ∧
    (∀ n : SlotId, (s.liveCounters.drop (8 * n.val)).take 8 =
      let c := (s.slot n).counters
      [c.delivered, c.corrected, c.bytesCorrected, c.uncorrectable, c.lockLosses, c.acqFailures, c.nulls, c.unrouted]) ∧
    (∀ e : Side, (s.liveCounters.drop (match e with
        | .a => 48
        | .b => 55)).take 7 =
      let c := (s.egress e).counters
      [c.sent, c.nulls, c.ordinaryDrops, c.essentialDrops, c.stale, c.stoppedDiscards, c.corrections]) ∧
    (∀ k : Side, (s.liveCounters.drop (match k with
        | .a => 62
        | .b => 65)).take 3 =
      let c := (s.link k).counters
      [c.headerErrors, c.unknownCells, c.requestDiscards]) ∧
    ∀ page : Byte, ∃ t, exec (.statsRead l tag page) s = .next t ∧ SameButAgent s t ∧
      (4 < page.toNat → Replied s t l tag 0x06 .badArg []) ∧
      (page.toNat ≤ 4 → s.snapshot.valid = false → Replied s t l tag 0x06 .badState []) ∧
      (page.toNat ≤ 4 → s.snapshot.valid = true →
        Replied s t l tag 0x06 .ok (((s.snapshot.bank.drop (14 * page.toNat)).take 14).flatMap (beBytes 4)))

/-- CAPTURE_START by the checks of R188 in order, and CAPTURE_CANCEL by the context's state. (Log entries 7, 22, 23, 24.) -/
def Obligations.CapturesStartAndCancel : Prop :=
  ∀ (l : Side) (tag : Byte) (s : State), s.Serves l →
    (∀ (context slot : Byte) (pid : BitVec 16) (mode n : Byte), 1 < context.toNat →
      ∃ t, exec (.captureStart l tag context slot pid mode n) s = .next t ∧
        Replied s t l tag 0x60 .badArg [] ∧ SameButAgent s t) ∧
    (∀ (c : CtxId) (slot : Byte) (pid : BitVec 16) (mode n : Byte),
      ∃ t, exec (.captureStart l tag (contextByte c) slot pid mode n) s = .next t ∧
        let argsOk := slot.toNat < 6 ∧ pid.toNat ≤ 8190 ∧ 1 ≤ mode.toNat ∧ mode.toNat ≤ 3 ∧
          (mode = 2 ∨ 1 ≤ n.toNat ∧ n.toNat ≤ 64)
        ((s.capture c).state ≠ .idle → Replied s t l tag 0x60 .busy [] ∧ SameButAgent s t) ∧
        ((s.capture c).state = .idle → ¬argsOk → Replied s t l tag 0x60 .badArg [] ∧ SameButAgent s t) ∧
        (∀ k : SlotId, (s.capture c).state = .idle → argsOk → slot.toNat = k.val →
          (((s.slot k).acq = .off ∨ s.poolCapacity .capture = 0) →
            Replied s t l tag 0x60 .badState [] ∧ SameButAgent s t) ∧
          ((s.slot k).acq ≠ .off → s.poolCapacity .capture ≠ 0 →
            Replied s t l tag 0x60 .ok [contextByte c, 1] ∧
            t.capture c = ⟨.active, k, pid.setWidth 13,
              (if mode = 1 then .count else if mode = 2 then .sectionMode else .continuous), n.toNat, l, [], 0, 0, 0, 0,
              0, .waiting, none, false, none⟩ ∧
            t = { s.setCapture c (t.capture c) with agent := t.agent }))) ∧
    (∀ c : CtxId, ∃ t, exec (.captureCancel l tag (contextByte c)) s = .next t ∧
      (((s.capture c).state = .active ∨ (s.capture c).state = .suspended) →
        Replied s t l tag 0x61 .ok ([3] ++ beBytes 2 (s.capture c).buffers.length) ∧
        t = { s.setCapture c (endedWith .cancelled (s.capture c)) with agent := t.agent }) ∧
      (((s.capture c).state = .idle ∨ (s.capture c).state = .draining) →
        Replied s t l tag 0x61 .badState
          ([if (s.capture c).state = .idle then 0 else 3] ++ beBytes 2 (s.capture c).buffers.length) ∧
        SameButAgent s t)) ∧
    (∀ context : Byte, 1 < context.toNat → ∃ t data, exec (.captureCancel l tag context) s = .next t ∧
      Replied s t l tag 0x61 .badArg data ∧ t = { s with agent := t.agent, freeCount := t.freeCount })

/-- What a qualifying packet does to a context, given the buffer that the CAPTURE pool would grant (R189 to R191). -/
def Obligations.CapturesCopyQualifyingPackets : Prop :=
  ∀ (granted : Option BufferId) (p : Packet) (x : CaptureContext),
    let y := x.qualify granted p
    let missed := min (x.missed + 1) 4294967295
    let captured := min (x.captured + 1) 4294967295
    (x.mode ≠ .sectionMode →
      ((packetError p = true ∨ x.state = .suspended) → y = { x with missed := missed }) ∧
      (packetError p = false → x.state ≠ .suspended → granted = none →
        y = { x with missed := missed, state := .suspended }) ∧
      (∀ id, packetError p = false → x.state ≠ .suspended → granted = some id →
        let taken := { x with
          pending := x.pending ++ [.packet id x.nextIndex p], nextIndex := (x.nextIndex + 1) % 65536
          captured := captured }
        (x.mode = .count → captured ≠ x.count → y = taken) ∧
        (x.mode = .count → captured = x.count → y = endedWith .countDone taken) ∧
        (x.mode = .continuous → captured % x.count ≠ 0 → y = taken) ∧
        (x.mode = .continuous → captured % x.count = 0 → y = { taken with
          round := min (x.round + 1) 4294967295
          pending := taken.pending ++ [.roundEnd captured x.missed (min (x.round + 1) 4294967295)] }))) ∧
    (x.mode = .sectionMode → x.phase = .waiting →
      ((packetError p = true ∨ packetUnitStart p = false) → y = x) ∧
      (packetError p = false → packetUnitStart p = true → granted = none → y = endedWith .gap x) ∧
      (∀ id, packetError p = false → packetUnitStart p = true → granted = some id → captured ≠ 64 →
        y = { x with
          pending := x.pending ++ [.packet id x.nextIndex p], nextIndex := (x.nextIndex + 1) % 65536
          captured := captured, phase := .opened
          lastCc := if packetHasPayload p then some (packetCc p) else x.lastCc })) ∧
    (x.mode = .sectionMode → x.phase = .opened →
      let broken := packetHasPayload p = true ∧ ∃ cc, x.lastCc = some cc ∧ packetCc p ≠ cc + 1
      (packetError p = true → y = endedWith .gap { x with missed := missed }) ∧
      (packetError p = false → packetUnitStart p = true → y = endedWith .sectionDone x) ∧
      (packetError p = false → packetUnitStart p = false → (broken ∨ granted = none) →
        y = endedWith .gap { x with missed := missed }) ∧
      (∀ id, packetError p = false → packetUnitStart p = false → ¬broken → granted = some id →
        let taken := { x with
          pending := x.pending ++ [.packet id x.nextIndex p], nextIndex := (x.nextIndex + 1) % 65536
          captured := captured
          lastCc := if packetHasPayload p then some (packetCc p) else x.lastCc }
        (captured ≠ 64 → y = taken) ∧
        (captured = 64 → y = endedWith .sectionDone { taken with truncated := true })))

/-! ## Laws that every step keeps -/

/-- The power-on state keeps every law. -/
def Obligations.PowerOnStateKeepsTheLaws : Prop :=
  State.reset.TablesCanonical ∧ State.reset.ClaimLaw ∧ State.reset.UnitLaw ∧ State.reset.BufferLaw ∧ State.reset.RouteLaw

/-- Every step keeps the tables in their canonical form, the ranges of the links (R160), the pacer's and the assembly's
(R136, R144), and the emptiness of an egress that is not RUNNING (R133); and in canonical tables the laws of the Route
Table: unique keys, unique output pairs and no PID 8191 (R97, R99). (Log entry 18.) -/
def Obligations.StepKeepsTablesAndUnits : Prop :=
  (∀ s t : State, s.TablesCanonical → step s = .next t → t.TablesCanonical) ∧
  (∀ s t : State, s.UnitLaw → step s = .next t → t.UnitLaw) ∧
  ∀ s t : State, s.TablesCanonical → s.RouteLaw → step s = .next t → t.RouteLaw

/-- Every step keeps the record law of R16 and the claim law of R21: no pair is claimed by two different slots. -/
def Obligations.StepKeepsTheClaims : Prop :=
  ∀ s t : State, s.ClaimLaw → step s = .next t → t.ClaimLaw

/-- Every step keeps the law of Packet Memory: no buffer is held twice, free and held buffers make 1024 (R132), and a held
buffer lies in a bank of its holder, so that an egress, and the captures, hold at most 128 times the number of the banks
they own (R133). (Log entry 17.) -/
def Obligations.StepKeepsTheBuffers : Prop :=
  (∀ s t : State, s.BufferLaw → step s = .next t → t.BufferLaw) ∧
  ∀ s : State, s.BufferLaw →
    ((List.finRange 8).map s.bankFree).sum +
      ((List.finRange 6).map fun n => s.egressA.queues[n].length + s.egressB.queues[n].length).sum +
      (s.capture0.buffers.length + s.capture1.buffers.length) = 1024 ∧
    (∀ e : Side, (s.egress e).buffers.length ≤
      128 * (List.finRange 8).countP fun b => s.banks[b].owner == egressOwner e) ∧
    s.capture0.buffers.length + s.capture1.buffers.length ≤
      128 * (List.finRange 8).countP fun b => s.banks[b].owner == .capture

end
end

