-- ==== Sys2Proof/Laws/State.lean ====
section
/-! SUPPORT. What each update of the state leaves of every field, and what the accessors read after each update. -/

namespace Sys2Proof.Machine

open Sys2Proof

/-! ## setInput -/

@[simp] theorem State.setInput_power (s : State) (i : RfId) (v : RfInput) : (s.setInput i v).power = s.power := by cases i <;> rfl
@[simp] theorem State.setInput_time (s : State) (i : RfId) (v : RfInput) : (s.setInput i v).time = s.time := by cases i <;> rfl
@[simp] theorem State.setInput_aux (s : State) (i : RfId) (v : RfInput) : (s.setInput i v).aux = s.aux := by cases i <;> rfl
@[simp] theorem State.setInput_slots (s : State) (i : RfId) (v : RfInput) : (s.setInput i v).slots = s.slots := by cases i <;> rfl
@[simp] theorem State.setInput_routes (s : State) (i : RfId) (v : RfInput) : (s.setInput i v).routes = s.routes := by cases i <;> rfl
@[simp] theorem State.setInput_banks (s : State) (i : RfId) (v : RfInput) : (s.setInput i v).banks = s.banks := by cases i <;> rfl
@[simp] theorem State.setInput_egressA (s : State) (i : RfId) (v : RfInput) : (s.setInput i v).egressA = s.egressA := by cases i <;> rfl
@[simp] theorem State.setInput_egressB (s : State) (i : RfId) (v : RfInput) : (s.setInput i v).egressB = s.egressB := by cases i <;> rfl
@[simp] theorem State.setInput_linkA (s : State) (i : RfId) (v : RfInput) : (s.setInput i v).linkA = s.linkA := by cases i <;> rfl
@[simp] theorem State.setInput_linkB (s : State) (i : RfId) (v : RfInput) : (s.setInput i v).linkB = s.linkB := by cases i <;> rfl
@[simp] theorem State.setInput_agent (s : State) (i : RfId) (v : RfInput) : (s.setInput i v).agent = s.agent := by cases i <;> rfl
@[simp] theorem State.setInput_capture0 (s : State) (i : RfId) (v : RfInput) : (s.setInput i v).capture0 = s.capture0 := by cases i <;> rfl
@[simp] theorem State.setInput_capture1 (s : State) (i : RfId) (v : RfInput) : (s.setInput i v).capture1 = s.capture1 := by cases i <;> rfl
@[simp] theorem State.setInput_events (s : State) (i : RfId) (v : RfInput) : (s.setInput i v).events = s.events := by cases i <;> rfl
@[simp] theorem State.setInput_snapshot (s : State) (i : RfId) (v : RfInput) : (s.setInput i v).snapshot = s.snapshot := by cases i <;> rfl
@[simp] theorem State.setInput_freeCount (s : State) (i : RfId) (v : RfInput) : (s.setInput i v).freeCount = s.freeCount := by cases i <;> rfl
@[simp] theorem State.setInput_pending (s : State) (i : RfId) (v : RfInput) : (s.setInput i v).pending = s.pending := by cases i <;> rfl

/-! ## setSlot -/

@[simp] theorem State.setSlot_power (s : State) (n : SlotId) (v : Slot) : (s.setSlot n v).power = s.power := rfl
@[simp] theorem State.setSlot_time (s : State) (n : SlotId) (v : Slot) : (s.setSlot n v).time = s.time := rfl
@[simp] theorem State.setSlot_rf0 (s : State) (n : SlotId) (v : Slot) : (s.setSlot n v).rf0 = s.rf0 := rfl
@[simp] theorem State.setSlot_rf1 (s : State) (n : SlotId) (v : Slot) : (s.setSlot n v).rf1 = s.rf1 := rfl
@[simp] theorem State.setSlot_aux (s : State) (n : SlotId) (v : Slot) : (s.setSlot n v).aux = s.aux := rfl
@[simp] theorem State.setSlot_routes (s : State) (n : SlotId) (v : Slot) : (s.setSlot n v).routes = s.routes := rfl
@[simp] theorem State.setSlot_banks (s : State) (n : SlotId) (v : Slot) : (s.setSlot n v).banks = s.banks := rfl
@[simp] theorem State.setSlot_egressA (s : State) (n : SlotId) (v : Slot) : (s.setSlot n v).egressA = s.egressA := rfl
@[simp] theorem State.setSlot_egressB (s : State) (n : SlotId) (v : Slot) : (s.setSlot n v).egressB = s.egressB := rfl
@[simp] theorem State.setSlot_linkA (s : State) (n : SlotId) (v : Slot) : (s.setSlot n v).linkA = s.linkA := rfl
@[simp] theorem State.setSlot_linkB (s : State) (n : SlotId) (v : Slot) : (s.setSlot n v).linkB = s.linkB := rfl
@[simp] theorem State.setSlot_agent (s : State) (n : SlotId) (v : Slot) : (s.setSlot n v).agent = s.agent := rfl
@[simp] theorem State.setSlot_capture0 (s : State) (n : SlotId) (v : Slot) : (s.setSlot n v).capture0 = s.capture0 := rfl
@[simp] theorem State.setSlot_capture1 (s : State) (n : SlotId) (v : Slot) : (s.setSlot n v).capture1 = s.capture1 := rfl
@[simp] theorem State.setSlot_events (s : State) (n : SlotId) (v : Slot) : (s.setSlot n v).events = s.events := rfl
@[simp] theorem State.setSlot_snapshot (s : State) (n : SlotId) (v : Slot) : (s.setSlot n v).snapshot = s.snapshot := rfl
@[simp] theorem State.setSlot_freeCount (s : State) (n : SlotId) (v : Slot) : (s.setSlot n v).freeCount = s.freeCount := rfl
@[simp] theorem State.setSlot_pending (s : State) (n : SlotId) (v : Slot) : (s.setSlot n v).pending = s.pending := rfl

/-! ## setEgress -/

@[simp] theorem State.setEgress_power (s : State) (e : Side) (v : Egress) : (s.setEgress e v).power = s.power := by cases e <;> rfl
@[simp] theorem State.setEgress_time (s : State) (e : Side) (v : Egress) : (s.setEgress e v).time = s.time := by cases e <;> rfl
@[simp] theorem State.setEgress_rf0 (s : State) (e : Side) (v : Egress) : (s.setEgress e v).rf0 = s.rf0 := by cases e <;> rfl
@[simp] theorem State.setEgress_rf1 (s : State) (e : Side) (v : Egress) : (s.setEgress e v).rf1 = s.rf1 := by cases e <;> rfl
@[simp] theorem State.setEgress_aux (s : State) (e : Side) (v : Egress) : (s.setEgress e v).aux = s.aux := by cases e <;> rfl
@[simp] theorem State.setEgress_slots (s : State) (e : Side) (v : Egress) : (s.setEgress e v).slots = s.slots := by cases e <;> rfl
@[simp] theorem State.setEgress_routes (s : State) (e : Side) (v : Egress) : (s.setEgress e v).routes = s.routes := by cases e <;> rfl
@[simp] theorem State.setEgress_banks (s : State) (e : Side) (v : Egress) : (s.setEgress e v).banks = s.banks := by cases e <;> rfl
@[simp] theorem State.setEgress_linkA (s : State) (e : Side) (v : Egress) : (s.setEgress e v).linkA = s.linkA := by cases e <;> rfl
@[simp] theorem State.setEgress_linkB (s : State) (e : Side) (v : Egress) : (s.setEgress e v).linkB = s.linkB := by cases e <;> rfl
@[simp] theorem State.setEgress_agent (s : State) (e : Side) (v : Egress) : (s.setEgress e v).agent = s.agent := by cases e <;> rfl
@[simp] theorem State.setEgress_capture0 (s : State) (e : Side) (v : Egress) : (s.setEgress e v).capture0 = s.capture0 := by cases e <;> rfl
@[simp] theorem State.setEgress_capture1 (s : State) (e : Side) (v : Egress) : (s.setEgress e v).capture1 = s.capture1 := by cases e <;> rfl
@[simp] theorem State.setEgress_events (s : State) (e : Side) (v : Egress) : (s.setEgress e v).events = s.events := by cases e <;> rfl
@[simp] theorem State.setEgress_snapshot (s : State) (e : Side) (v : Egress) : (s.setEgress e v).snapshot = s.snapshot := by cases e <;> rfl
@[simp] theorem State.setEgress_freeCount (s : State) (e : Side) (v : Egress) : (s.setEgress e v).freeCount = s.freeCount := by cases e <;> rfl
@[simp] theorem State.setEgress_pending (s : State) (e : Side) (v : Egress) : (s.setEgress e v).pending = s.pending := by cases e <;> rfl

/-! ## setLink -/

@[simp] theorem State.setLink_power (s : State) (l : Side) (v : LinkUnit) : (s.setLink l v).power = s.power := by cases l <;> rfl
@[simp] theorem State.setLink_time (s : State) (l : Side) (v : LinkUnit) : (s.setLink l v).time = s.time := by cases l <;> rfl
@[simp] theorem State.setLink_rf0 (s : State) (l : Side) (v : LinkUnit) : (s.setLink l v).rf0 = s.rf0 := by cases l <;> rfl
@[simp] theorem State.setLink_rf1 (s : State) (l : Side) (v : LinkUnit) : (s.setLink l v).rf1 = s.rf1 := by cases l <;> rfl
@[simp] theorem State.setLink_aux (s : State) (l : Side) (v : LinkUnit) : (s.setLink l v).aux = s.aux := by cases l <;> rfl
@[simp] theorem State.setLink_slots (s : State) (l : Side) (v : LinkUnit) : (s.setLink l v).slots = s.slots := by cases l <;> rfl
@[simp] theorem State.setLink_routes (s : State) (l : Side) (v : LinkUnit) : (s.setLink l v).routes = s.routes := by cases l <;> rfl
@[simp] theorem State.setLink_banks (s : State) (l : Side) (v : LinkUnit) : (s.setLink l v).banks = s.banks := by cases l <;> rfl
@[simp] theorem State.setLink_egressA (s : State) (l : Side) (v : LinkUnit) : (s.setLink l v).egressA = s.egressA := by cases l <;> rfl
@[simp] theorem State.setLink_egressB (s : State) (l : Side) (v : LinkUnit) : (s.setLink l v).egressB = s.egressB := by cases l <;> rfl
@[simp] theorem State.setLink_agent (s : State) (l : Side) (v : LinkUnit) : (s.setLink l v).agent = s.agent := by cases l <;> rfl
@[simp] theorem State.setLink_capture0 (s : State) (l : Side) (v : LinkUnit) : (s.setLink l v).capture0 = s.capture0 := by cases l <;> rfl
@[simp] theorem State.setLink_capture1 (s : State) (l : Side) (v : LinkUnit) : (s.setLink l v).capture1 = s.capture1 := by cases l <;> rfl
@[simp] theorem State.setLink_events (s : State) (l : Side) (v : LinkUnit) : (s.setLink l v).events = s.events := by cases l <;> rfl
@[simp] theorem State.setLink_snapshot (s : State) (l : Side) (v : LinkUnit) : (s.setLink l v).snapshot = s.snapshot := by cases l <;> rfl
@[simp] theorem State.setLink_freeCount (s : State) (l : Side) (v : LinkUnit) : (s.setLink l v).freeCount = s.freeCount := by cases l <;> rfl
@[simp] theorem State.setLink_pending (s : State) (l : Side) (v : LinkUnit) : (s.setLink l v).pending = s.pending := by cases l <;> rfl

/-! ## setCapture -/

@[simp] theorem State.setCapture_power (s : State) (c : CtxId) (v : CaptureContext) : (s.setCapture c v).power = s.power := by cases c <;> rfl
@[simp] theorem State.setCapture_time (s : State) (c : CtxId) (v : CaptureContext) : (s.setCapture c v).time = s.time := by cases c <;> rfl
@[simp] theorem State.setCapture_rf0 (s : State) (c : CtxId) (v : CaptureContext) : (s.setCapture c v).rf0 = s.rf0 := by cases c <;> rfl
@[simp] theorem State.setCapture_rf1 (s : State) (c : CtxId) (v : CaptureContext) : (s.setCapture c v).rf1 = s.rf1 := by cases c <;> rfl
@[simp] theorem State.setCapture_aux (s : State) (c : CtxId) (v : CaptureContext) : (s.setCapture c v).aux = s.aux := by cases c <;> rfl
@[simp] theorem State.setCapture_slots (s : State) (c : CtxId) (v : CaptureContext) : (s.setCapture c v).slots = s.slots := by cases c <;> rfl
@[simp] theorem State.setCapture_routes (s : State) (c : CtxId) (v : CaptureContext) : (s.setCapture c v).routes = s.routes := by cases c <;> rfl
@[simp] theorem State.setCapture_banks (s : State) (c : CtxId) (v : CaptureContext) : (s.setCapture c v).banks = s.banks := by cases c <;> rfl
@[simp] theorem State.setCapture_egressA (s : State) (c : CtxId) (v : CaptureContext) : (s.setCapture c v).egressA = s.egressA := by cases c <;> rfl
@[simp] theorem State.setCapture_egressB (s : State) (c : CtxId) (v : CaptureContext) : (s.setCapture c v).egressB = s.egressB := by cases c <;> rfl
@[simp] theorem State.setCapture_linkA (s : State) (c : CtxId) (v : CaptureContext) : (s.setCapture c v).linkA = s.linkA := by cases c <;> rfl
@[simp] theorem State.setCapture_linkB (s : State) (c : CtxId) (v : CaptureContext) : (s.setCapture c v).linkB = s.linkB := by cases c <;> rfl
@[simp] theorem State.setCapture_agent (s : State) (c : CtxId) (v : CaptureContext) : (s.setCapture c v).agent = s.agent := by cases c <;> rfl
@[simp] theorem State.setCapture_events (s : State) (c : CtxId) (v : CaptureContext) : (s.setCapture c v).events = s.events := by cases c <;> rfl
@[simp] theorem State.setCapture_snapshot (s : State) (c : CtxId) (v : CaptureContext) : (s.setCapture c v).snapshot = s.snapshot := by cases c <;> rfl
@[simp] theorem State.setCapture_freeCount (s : State) (c : CtxId) (v : CaptureContext) : (s.setCapture c v).freeCount = s.freeCount := by cases c <;> rfl
@[simp] theorem State.setCapture_pending (s : State) (c : CtxId) (v : CaptureContext) : (s.setCapture c v).pending = s.pending := by cases c <;> rfl

/-! ## latch -/

@[simp] theorem State.latch_power (s : State) (f : EventFlag) : (s.latch f).power = s.power := rfl
@[simp] theorem State.latch_time (s : State) (f : EventFlag) : (s.latch f).time = s.time := rfl
@[simp] theorem State.latch_rf0 (s : State) (f : EventFlag) : (s.latch f).rf0 = s.rf0 := rfl
@[simp] theorem State.latch_rf1 (s : State) (f : EventFlag) : (s.latch f).rf1 = s.rf1 := rfl
@[simp] theorem State.latch_aux (s : State) (f : EventFlag) : (s.latch f).aux = s.aux := rfl
@[simp] theorem State.latch_slots (s : State) (f : EventFlag) : (s.latch f).slots = s.slots := rfl
@[simp] theorem State.latch_routes (s : State) (f : EventFlag) : (s.latch f).routes = s.routes := rfl
@[simp] theorem State.latch_banks (s : State) (f : EventFlag) : (s.latch f).banks = s.banks := rfl
@[simp] theorem State.latch_egressA (s : State) (f : EventFlag) : (s.latch f).egressA = s.egressA := rfl
@[simp] theorem State.latch_egressB (s : State) (f : EventFlag) : (s.latch f).egressB = s.egressB := rfl
@[simp] theorem State.latch_linkA (s : State) (f : EventFlag) : (s.latch f).linkA = s.linkA := rfl
@[simp] theorem State.latch_linkB (s : State) (f : EventFlag) : (s.latch f).linkB = s.linkB := rfl
@[simp] theorem State.latch_agent (s : State) (f : EventFlag) : (s.latch f).agent = s.agent := rfl
@[simp] theorem State.latch_capture0 (s : State) (f : EventFlag) : (s.latch f).capture0 = s.capture0 := rfl
@[simp] theorem State.latch_capture1 (s : State) (f : EventFlag) : (s.latch f).capture1 = s.capture1 := rfl
@[simp] theorem State.latch_snapshot (s : State) (f : EventFlag) : (s.latch f).snapshot = s.snapshot := rfl
@[simp] theorem State.latch_freeCount (s : State) (f : EventFlag) : (s.latch f).freeCount = s.freeCount := rfl
@[simp] theorem State.latch_pending (s : State) (f : EventFlag) : (s.latch f).pending = s.pending := rfl

/-! ## latchIf -/

@[simp] theorem State.latchIf_power (s : State) (b : Bool) (f : EventFlag) : (s.latchIf b f).power = s.power := by cases b <;> rfl
@[simp] theorem State.latchIf_time (s : State) (b : Bool) (f : EventFlag) : (s.latchIf b f).time = s.time := by cases b <;> rfl
@[simp] theorem State.latchIf_rf0 (s : State) (b : Bool) (f : EventFlag) : (s.latchIf b f).rf0 = s.rf0 := by cases b <;> rfl
@[simp] theorem State.latchIf_rf1 (s : State) (b : Bool) (f : EventFlag) : (s.latchIf b f).rf1 = s.rf1 := by cases b <;> rfl
@[simp] theorem State.latchIf_aux (s : State) (b : Bool) (f : EventFlag) : (s.latchIf b f).aux = s.aux := by cases b <;> rfl
@[simp] theorem State.latchIf_slots (s : State) (b : Bool) (f : EventFlag) : (s.latchIf b f).slots = s.slots := by cases b <;> rfl
@[simp] theorem State.latchIf_routes (s : State) (b : Bool) (f : EventFlag) : (s.latchIf b f).routes = s.routes := by cases b <;> rfl
@[simp] theorem State.latchIf_banks (s : State) (b : Bool) (f : EventFlag) : (s.latchIf b f).banks = s.banks := by cases b <;> rfl
@[simp] theorem State.latchIf_egressA (s : State) (b : Bool) (f : EventFlag) : (s.latchIf b f).egressA = s.egressA := by cases b <;> rfl
@[simp] theorem State.latchIf_egressB (s : State) (b : Bool) (f : EventFlag) : (s.latchIf b f).egressB = s.egressB := by cases b <;> rfl
@[simp] theorem State.latchIf_linkA (s : State) (b : Bool) (f : EventFlag) : (s.latchIf b f).linkA = s.linkA := by cases b <;> rfl
@[simp] theorem State.latchIf_linkB (s : State) (b : Bool) (f : EventFlag) : (s.latchIf b f).linkB = s.linkB := by cases b <;> rfl
@[simp] theorem State.latchIf_agent (s : State) (b : Bool) (f : EventFlag) : (s.latchIf b f).agent = s.agent := by cases b <;> rfl
@[simp] theorem State.latchIf_capture0 (s : State) (b : Bool) (f : EventFlag) : (s.latchIf b f).capture0 = s.capture0 := by cases b <;> rfl
@[simp] theorem State.latchIf_capture1 (s : State) (b : Bool) (f : EventFlag) : (s.latchIf b f).capture1 = s.capture1 := by cases b <;> rfl
@[simp] theorem State.latchIf_snapshot (s : State) (b : Bool) (f : EventFlag) : (s.latchIf b f).snapshot = s.snapshot := by cases b <;> rfl
@[simp] theorem State.latchIf_freeCount (s : State) (b : Bool) (f : EventFlag) : (s.latchIf b f).freeCount = s.freeCount := by cases b <;> rfl
@[simp] theorem State.latchIf_pending (s : State) (b : Bool) (f : EventFlag) : (s.latchIf b f).pending = s.pending := by cases b <;> rfl

/-! ## setRoute -/

@[simp] theorem State.setRoute_power (s : State) (i : Nat) (e : RouteEntry) : (s.setRoute i e).power = s.power := rfl
@[simp] theorem State.setRoute_time (s : State) (i : Nat) (e : RouteEntry) : (s.setRoute i e).time = s.time := rfl
@[simp] theorem State.setRoute_rf0 (s : State) (i : Nat) (e : RouteEntry) : (s.setRoute i e).rf0 = s.rf0 := rfl
@[simp] theorem State.setRoute_rf1 (s : State) (i : Nat) (e : RouteEntry) : (s.setRoute i e).rf1 = s.rf1 := rfl
@[simp] theorem State.setRoute_aux (s : State) (i : Nat) (e : RouteEntry) : (s.setRoute i e).aux = s.aux := rfl
@[simp] theorem State.setRoute_slots (s : State) (i : Nat) (e : RouteEntry) : (s.setRoute i e).slots = s.slots := rfl
@[simp] theorem State.setRoute_banks (s : State) (i : Nat) (e : RouteEntry) : (s.setRoute i e).banks = s.banks := rfl
@[simp] theorem State.setRoute_egressA (s : State) (i : Nat) (e : RouteEntry) : (s.setRoute i e).egressA = s.egressA := rfl
@[simp] theorem State.setRoute_egressB (s : State) (i : Nat) (e : RouteEntry) : (s.setRoute i e).egressB = s.egressB := rfl
@[simp] theorem State.setRoute_linkA (s : State) (i : Nat) (e : RouteEntry) : (s.setRoute i e).linkA = s.linkA := rfl
@[simp] theorem State.setRoute_linkB (s : State) (i : Nat) (e : RouteEntry) : (s.setRoute i e).linkB = s.linkB := rfl
@[simp] theorem State.setRoute_agent (s : State) (i : Nat) (e : RouteEntry) : (s.setRoute i e).agent = s.agent := rfl
@[simp] theorem State.setRoute_capture0 (s : State) (i : Nat) (e : RouteEntry) : (s.setRoute i e).capture0 = s.capture0 := rfl
@[simp] theorem State.setRoute_capture1 (s : State) (i : Nat) (e : RouteEntry) : (s.setRoute i e).capture1 = s.capture1 := rfl
@[simp] theorem State.setRoute_events (s : State) (i : Nat) (e : RouteEntry) : (s.setRoute i e).events = s.events := rfl
@[simp] theorem State.setRoute_snapshot (s : State) (i : Nat) (e : RouteEntry) : (s.setRoute i e).snapshot = s.snapshot := rfl
@[simp] theorem State.setRoute_freeCount (s : State) (i : Nat) (e : RouteEntry) : (s.setRoute i e).freeCount = s.freeCount := rfl
@[simp] theorem State.setRoute_pending (s : State) (i : Nat) (e : RouteEntry) : (s.setRoute i e).pending = s.pending := rfl

/-! ## setBank -/

@[simp] theorem State.setBank_power (s : State) (b : Fin 8) (k : Bank) : (s.setBank b k).power = s.power := rfl
@[simp] theorem State.setBank_time (s : State) (b : Fin 8) (k : Bank) : (s.setBank b k).time = s.time := rfl
@[simp] theorem State.setBank_rf0 (s : State) (b : Fin 8) (k : Bank) : (s.setBank b k).rf0 = s.rf0 := rfl
@[simp] theorem State.setBank_rf1 (s : State) (b : Fin 8) (k : Bank) : (s.setBank b k).rf1 = s.rf1 := rfl
@[simp] theorem State.setBank_aux (s : State) (b : Fin 8) (k : Bank) : (s.setBank b k).aux = s.aux := rfl
@[simp] theorem State.setBank_slots (s : State) (b : Fin 8) (k : Bank) : (s.setBank b k).slots = s.slots := rfl
@[simp] theorem State.setBank_routes (s : State) (b : Fin 8) (k : Bank) : (s.setBank b k).routes = s.routes := rfl
@[simp] theorem State.setBank_egressA (s : State) (b : Fin 8) (k : Bank) : (s.setBank b k).egressA = s.egressA := rfl
@[simp] theorem State.setBank_egressB (s : State) (b : Fin 8) (k : Bank) : (s.setBank b k).egressB = s.egressB := rfl
@[simp] theorem State.setBank_linkA (s : State) (b : Fin 8) (k : Bank) : (s.setBank b k).linkA = s.linkA := rfl
@[simp] theorem State.setBank_linkB (s : State) (b : Fin 8) (k : Bank) : (s.setBank b k).linkB = s.linkB := rfl
@[simp] theorem State.setBank_agent (s : State) (b : Fin 8) (k : Bank) : (s.setBank b k).agent = s.agent := rfl
@[simp] theorem State.setBank_capture0 (s : State) (b : Fin 8) (k : Bank) : (s.setBank b k).capture0 = s.capture0 := rfl
@[simp] theorem State.setBank_capture1 (s : State) (b : Fin 8) (k : Bank) : (s.setBank b k).capture1 = s.capture1 := rfl
@[simp] theorem State.setBank_events (s : State) (b : Fin 8) (k : Bank) : (s.setBank b k).events = s.events := rfl
@[simp] theorem State.setBank_snapshot (s : State) (b : Fin 8) (k : Bank) : (s.setBank b k).snapshot = s.snapshot := rfl
@[simp] theorem State.setBank_freeCount (s : State) (b : Fin 8) (k : Bank) : (s.setBank b k).freeCount = s.freeCount := rfl
@[simp] theorem State.setBank_pending (s : State) (b : Fin 8) (k : Bank) : (s.setBank b k).pending = s.pending := rfl

/-! ## useFree -/

@[simp] theorem State.useFree_power (s : State) (k : Nat) : (s.useFree k).power = s.power := rfl
@[simp] theorem State.useFree_time (s : State) (k : Nat) : (s.useFree k).time = s.time := rfl
@[simp] theorem State.useFree_rf0 (s : State) (k : Nat) : (s.useFree k).rf0 = s.rf0 := rfl
@[simp] theorem State.useFree_rf1 (s : State) (k : Nat) : (s.useFree k).rf1 = s.rf1 := rfl
@[simp] theorem State.useFree_aux (s : State) (k : Nat) : (s.useFree k).aux = s.aux := rfl
@[simp] theorem State.useFree_slots (s : State) (k : Nat) : (s.useFree k).slots = s.slots := rfl
@[simp] theorem State.useFree_routes (s : State) (k : Nat) : (s.useFree k).routes = s.routes := rfl
@[simp] theorem State.useFree_banks (s : State) (k : Nat) : (s.useFree k).banks = s.banks := rfl
@[simp] theorem State.useFree_egressA (s : State) (k : Nat) : (s.useFree k).egressA = s.egressA := rfl
@[simp] theorem State.useFree_egressB (s : State) (k : Nat) : (s.useFree k).egressB = s.egressB := rfl
@[simp] theorem State.useFree_linkA (s : State) (k : Nat) : (s.useFree k).linkA = s.linkA := rfl
@[simp] theorem State.useFree_linkB (s : State) (k : Nat) : (s.useFree k).linkB = s.linkB := rfl
@[simp] theorem State.useFree_agent (s : State) (k : Nat) : (s.useFree k).agent = s.agent := rfl
@[simp] theorem State.useFree_capture0 (s : State) (k : Nat) : (s.useFree k).capture0 = s.capture0 := rfl
@[simp] theorem State.useFree_capture1 (s : State) (k : Nat) : (s.useFree k).capture1 = s.capture1 := rfl
@[simp] theorem State.useFree_events (s : State) (k : Nat) : (s.useFree k).events = s.events := rfl
@[simp] theorem State.useFree_snapshot (s : State) (k : Nat) : (s.useFree k).snapshot = s.snapshot := rfl
@[simp] theorem State.useFree_pending (s : State) (k : Nat) : (s.useFree k).pending = s.pending := rfl

/-! ## endCaptures -/

@[simp] theorem State.endCaptures_power (s : State) (n : SlotId) : (s.endCaptures n).power = s.power := rfl
@[simp] theorem State.endCaptures_time (s : State) (n : SlotId) : (s.endCaptures n).time = s.time := rfl
@[simp] theorem State.endCaptures_rf0 (s : State) (n : SlotId) : (s.endCaptures n).rf0 = s.rf0 := rfl
@[simp] theorem State.endCaptures_rf1 (s : State) (n : SlotId) : (s.endCaptures n).rf1 = s.rf1 := rfl
@[simp] theorem State.endCaptures_aux (s : State) (n : SlotId) : (s.endCaptures n).aux = s.aux := rfl
@[simp] theorem State.endCaptures_slots (s : State) (n : SlotId) : (s.endCaptures n).slots = s.slots := rfl
@[simp] theorem State.endCaptures_routes (s : State) (n : SlotId) : (s.endCaptures n).routes = s.routes := rfl
@[simp] theorem State.endCaptures_banks (s : State) (n : SlotId) : (s.endCaptures n).banks = s.banks := rfl
@[simp] theorem State.endCaptures_egressA (s : State) (n : SlotId) : (s.endCaptures n).egressA = s.egressA := rfl
@[simp] theorem State.endCaptures_egressB (s : State) (n : SlotId) : (s.endCaptures n).egressB = s.egressB := rfl
@[simp] theorem State.endCaptures_linkA (s : State) (n : SlotId) : (s.endCaptures n).linkA = s.linkA := rfl
@[simp] theorem State.endCaptures_linkB (s : State) (n : SlotId) : (s.endCaptures n).linkB = s.linkB := rfl
@[simp] theorem State.endCaptures_agent (s : State) (n : SlotId) : (s.endCaptures n).agent = s.agent := rfl
@[simp] theorem State.endCaptures_events (s : State) (n : SlotId) : (s.endCaptures n).events = s.events := rfl
@[simp] theorem State.endCaptures_snapshot (s : State) (n : SlotId) : (s.endCaptures n).snapshot = s.snapshot := rfl
@[simp] theorem State.endCaptures_freeCount (s : State) (n : SlotId) : (s.endCaptures n).freeCount = s.freeCount := rfl
@[simp] theorem State.endCaptures_pending (s : State) (n : SlotId) : (s.endCaptures n).pending = s.pending := rfl

/-! ## resumeCaptures -/

@[simp] theorem State.resumeCaptures_power (s : State) : (s.resumeCaptures).power = s.power := by unfold State.resumeCaptures; split <;> rfl
@[simp] theorem State.resumeCaptures_time (s : State) : (s.resumeCaptures).time = s.time := by unfold State.resumeCaptures; split <;> rfl
@[simp] theorem State.resumeCaptures_rf0 (s : State) : (s.resumeCaptures).rf0 = s.rf0 := by unfold State.resumeCaptures; split <;> rfl
@[simp] theorem State.resumeCaptures_rf1 (s : State) : (s.resumeCaptures).rf1 = s.rf1 := by unfold State.resumeCaptures; split <;> rfl
@[simp] theorem State.resumeCaptures_aux (s : State) : (s.resumeCaptures).aux = s.aux := by unfold State.resumeCaptures; split <;> rfl
@[simp] theorem State.resumeCaptures_slots (s : State) : (s.resumeCaptures).slots = s.slots := by unfold State.resumeCaptures; split <;> rfl
@[simp] theorem State.resumeCaptures_routes (s : State) : (s.resumeCaptures).routes = s.routes := by unfold State.resumeCaptures; split <;> rfl
@[simp] theorem State.resumeCaptures_banks (s : State) : (s.resumeCaptures).banks = s.banks := by unfold State.resumeCaptures; split <;> rfl
@[simp] theorem State.resumeCaptures_egressA (s : State) : (s.resumeCaptures).egressA = s.egressA := by unfold State.resumeCaptures; split <;> rfl
@[simp] theorem State.resumeCaptures_egressB (s : State) : (s.resumeCaptures).egressB = s.egressB := by unfold State.resumeCaptures; split <;> rfl
@[simp] theorem State.resumeCaptures_linkA (s : State) : (s.resumeCaptures).linkA = s.linkA := by unfold State.resumeCaptures; split <;> rfl
@[simp] theorem State.resumeCaptures_linkB (s : State) : (s.resumeCaptures).linkB = s.linkB := by unfold State.resumeCaptures; split <;> rfl
@[simp] theorem State.resumeCaptures_agent (s : State) : (s.resumeCaptures).agent = s.agent := by unfold State.resumeCaptures; split <;> rfl
@[simp] theorem State.resumeCaptures_events (s : State) : (s.resumeCaptures).events = s.events := by unfold State.resumeCaptures; split <;> rfl
@[simp] theorem State.resumeCaptures_snapshot (s : State) : (s.resumeCaptures).snapshot = s.snapshot := by unfold State.resumeCaptures; split <;> rfl
@[simp] theorem State.resumeCaptures_freeCount (s : State) : (s.resumeCaptures).freeCount = s.freeCount := by unfold State.resumeCaptures; split <;> rfl
@[simp] theorem State.resumeCaptures_pending (s : State) : (s.resumeCaptures).pending = s.pending := by unfold State.resumeCaptures; split <;> rfl

/-! ## drainTest -/

@[simp] theorem State.drainTest_power (s : State) (b : Fin 8) : (s.drainTest b).power = s.power := by unfold State.drainTest; split <;> (try split) <;> rfl
@[simp] theorem State.drainTest_time (s : State) (b : Fin 8) : (s.drainTest b).time = s.time := by unfold State.drainTest; split <;> (try split) <;> rfl
@[simp] theorem State.drainTest_rf0 (s : State) (b : Fin 8) : (s.drainTest b).rf0 = s.rf0 := by unfold State.drainTest; split <;> (try split) <;> rfl
@[simp] theorem State.drainTest_rf1 (s : State) (b : Fin 8) : (s.drainTest b).rf1 = s.rf1 := by unfold State.drainTest; split <;> (try split) <;> rfl
@[simp] theorem State.drainTest_aux (s : State) (b : Fin 8) : (s.drainTest b).aux = s.aux := by unfold State.drainTest; split <;> (try split) <;> rfl
@[simp] theorem State.drainTest_slots (s : State) (b : Fin 8) : (s.drainTest b).slots = s.slots := by unfold State.drainTest; split <;> (try split) <;> rfl
@[simp] theorem State.drainTest_routes (s : State) (b : Fin 8) : (s.drainTest b).routes = s.routes := by unfold State.drainTest; split <;> (try split) <;> rfl
@[simp] theorem State.drainTest_egressA (s : State) (b : Fin 8) : (s.drainTest b).egressA = s.egressA := by unfold State.drainTest; split <;> (try split) <;> rfl
@[simp] theorem State.drainTest_egressB (s : State) (b : Fin 8) : (s.drainTest b).egressB = s.egressB := by unfold State.drainTest; split <;> (try split) <;> rfl
@[simp] theorem State.drainTest_linkA (s : State) (b : Fin 8) : (s.drainTest b).linkA = s.linkA := by unfold State.drainTest; split <;> (try split) <;> rfl
@[simp] theorem State.drainTest_linkB (s : State) (b : Fin 8) : (s.drainTest b).linkB = s.linkB := by unfold State.drainTest; split <;> (try split) <;> rfl
@[simp] theorem State.drainTest_agent (s : State) (b : Fin 8) : (s.drainTest b).agent = s.agent := by unfold State.drainTest; split <;> (try split) <;> rfl
@[simp] theorem State.drainTest_capture0 (s : State) (b : Fin 8) : (s.drainTest b).capture0 = s.capture0 := by unfold State.drainTest; split <;> (try split) <;> rfl
@[simp] theorem State.drainTest_capture1 (s : State) (b : Fin 8) : (s.drainTest b).capture1 = s.capture1 := by unfold State.drainTest; split <;> (try split) <;> rfl
@[simp] theorem State.drainTest_events (s : State) (b : Fin 8) : (s.drainTest b).events = s.events := by unfold State.drainTest; split <;> (try split) <;> rfl
@[simp] theorem State.drainTest_snapshot (s : State) (b : Fin 8) : (s.drainTest b).snapshot = s.snapshot := by unfold State.drainTest; split <;> (try split) <;> rfl
@[simp] theorem State.drainTest_freeCount (s : State) (b : Fin 8) : (s.drainTest b).freeCount = s.freeCount := by unfold State.drainTest; split <;> (try split) <;> rfl
@[simp] theorem State.drainTest_pending (s : State) (b : Fin 8) : (s.drainTest b).pending = s.pending := by unfold State.drainTest; split <;> (try split) <;> rfl

/-! ## What the accessors read -/

theorem State.input_setInput (s : State) (i j : RfId) (v : RfInput) :
    (s.setInput i v).input j = if i = j then v else s.input j := by cases i <;> cases j <;> rfl

@[simp] theorem State.input_setInput_same (s : State) (i : RfId) (v : RfInput) : (s.setInput i v).input i = v := by
  cases i <;> rfl

theorem State.slot_setSlot (s : State) (n m : SlotId) (v : Slot) :
    (s.setSlot n v).slot m = if n = m then v else s.slot m := by
  simp only [State.slot, State.setSlot, Fin.getElem_fin, Vector.getElem_set, Fin.ext_iff]

@[simp] theorem State.slot_setSlot_same (s : State) (n : SlotId) (v : Slot) : (s.setSlot n v).slot n = v := by
  simp [State.slot_setSlot]

theorem State.slot_setSlot_other (s : State) (n m : SlotId) (v : Slot) (h : n ≠ m) :
    (s.setSlot n v).slot m = s.slot m := by
  simp [State.slot_setSlot, h]

theorem State.egress_setEgress (s : State) (e f : Side) (v : Egress) :
    (s.setEgress e v).egress f = if e = f then v else s.egress f := by cases e <;> cases f <;> rfl

@[simp] theorem State.egress_setEgress_same (s : State) (e : Side) (v : Egress) : (s.setEgress e v).egress e = v := by
  cases e <;> rfl

theorem State.link_setLink (s : State) (l m : Side) (v : LinkUnit) :
    (s.setLink l v).link m = if l = m then v else s.link m := by cases l <;> cases m <;> rfl

@[simp] theorem State.link_setLink_same (s : State) (l : Side) (v : LinkUnit) : (s.setLink l v).link l = v := by
  cases l <;> rfl

theorem State.capture_setCapture (s : State) (c d : CtxId) (v : CaptureContext) :
    (s.setCapture c v).capture d = if c = d then v else s.capture d := by cases c <;> cases d <;> rfl

@[simp] theorem State.capture_setCapture_same (s : State) (c : CtxId) (v : CaptureContext) :
    (s.setCapture c v).capture c = v := by cases c <;> rfl

/-! ## Accessors of what an update does not touch -/

@[simp] theorem State.slot_setInput (s : State) (i : RfId) (v : RfInput) (m : SlotId) : (s.setInput i v).slot m = s.slot m :=
  by simp only [State.slot, State.setInput_slots]
@[simp] theorem State.egress_setInput (s : State) (i : RfId) (v : RfInput) (f : Side) : (s.setInput i v).egress f = s.egress f :=
  by cases f <;> simp only [State.egress, State.setInput_egressA, State.setInput_egressB]
@[simp] theorem State.link_setInput (s : State) (i : RfId) (v : RfInput) (m : Side) : (s.setInput i v).link m = s.link m :=
  by cases m <;> simp only [State.link, State.setInput_linkA, State.setInput_linkB]
@[simp] theorem State.capture_setInput (s : State) (i : RfId) (v : RfInput) (d : CtxId) : (s.setInput i v).capture d = s.capture d :=
  by cases d <;> simp only [State.capture, State.setInput_capture0, State.setInput_capture1]
@[simp] theorem State.input_setSlot (s : State) (n : SlotId) (v : Slot) (j : RfId) : (s.setSlot n v).input j = s.input j :=
  by cases j <;> simp only [State.input, State.setSlot_rf0, State.setSlot_rf1]
@[simp] theorem State.egress_setSlot (s : State) (n : SlotId) (v : Slot) (f : Side) : (s.setSlot n v).egress f = s.egress f :=
  by cases f <;> simp only [State.egress, State.setSlot_egressA, State.setSlot_egressB]
@[simp] theorem State.link_setSlot (s : State) (n : SlotId) (v : Slot) (m : Side) : (s.setSlot n v).link m = s.link m :=
  by cases m <;> simp only [State.link, State.setSlot_linkA, State.setSlot_linkB]
@[simp] theorem State.capture_setSlot (s : State) (n : SlotId) (v : Slot) (d : CtxId) : (s.setSlot n v).capture d = s.capture d :=
  by cases d <;> simp only [State.capture, State.setSlot_capture0, State.setSlot_capture1]
@[simp] theorem State.input_setEgress (s : State) (e : Side) (v : Egress) (j : RfId) : (s.setEgress e v).input j = s.input j :=
  by cases j <;> simp only [State.input, State.setEgress_rf0, State.setEgress_rf1]
@[simp] theorem State.slot_setEgress (s : State) (e : Side) (v : Egress) (m : SlotId) : (s.setEgress e v).slot m = s.slot m :=
  by simp only [State.slot, State.setEgress_slots]
@[simp] theorem State.link_setEgress (s : State) (e : Side) (v : Egress) (m : Side) : (s.setEgress e v).link m = s.link m :=
  by cases m <;> simp only [State.link, State.setEgress_linkA, State.setEgress_linkB]
@[simp] theorem State.capture_setEgress (s : State) (e : Side) (v : Egress) (d : CtxId) : (s.setEgress e v).capture d = s.capture d :=
  by cases d <;> simp only [State.capture, State.setEgress_capture0, State.setEgress_capture1]
@[simp] theorem State.input_setLink (s : State) (l : Side) (v : LinkUnit) (j : RfId) : (s.setLink l v).input j = s.input j :=
  by cases j <;> simp only [State.input, State.setLink_rf0, State.setLink_rf1]
@[simp] theorem State.slot_setLink (s : State) (l : Side) (v : LinkUnit) (m : SlotId) : (s.setLink l v).slot m = s.slot m :=
  by simp only [State.slot, State.setLink_slots]
@[simp] theorem State.egress_setLink (s : State) (l : Side) (v : LinkUnit) (f : Side) : (s.setLink l v).egress f = s.egress f :=
  by cases f <;> simp only [State.egress, State.setLink_egressA, State.setLink_egressB]
@[simp] theorem State.capture_setLink (s : State) (l : Side) (v : LinkUnit) (d : CtxId) : (s.setLink l v).capture d = s.capture d :=
  by cases d <;> simp only [State.capture, State.setLink_capture0, State.setLink_capture1]
@[simp] theorem State.input_setCapture (s : State) (c : CtxId) (v : CaptureContext) (j : RfId) : (s.setCapture c v).input j = s.input j :=
  by cases j <;> simp only [State.input, State.setCapture_rf0, State.setCapture_rf1]
@[simp] theorem State.slot_setCapture (s : State) (c : CtxId) (v : CaptureContext) (m : SlotId) : (s.setCapture c v).slot m = s.slot m :=
  by simp only [State.slot, State.setCapture_slots]
@[simp] theorem State.egress_setCapture (s : State) (c : CtxId) (v : CaptureContext) (f : Side) : (s.setCapture c v).egress f = s.egress f :=
  by cases f <;> simp only [State.egress, State.setCapture_egressA, State.setCapture_egressB]
@[simp] theorem State.link_setCapture (s : State) (c : CtxId) (v : CaptureContext) (m : Side) : (s.setCapture c v).link m = s.link m :=
  by cases m <;> simp only [State.link, State.setCapture_linkA, State.setCapture_linkB]
@[simp] theorem State.input_latch (s : State) (f : EventFlag) (j : RfId) : (s.latch f).input j = s.input j :=
  by cases j <;> simp only [State.input, State.latch_rf0, State.latch_rf1]
@[simp] theorem State.slot_latch (s : State) (f : EventFlag) (m : SlotId) : (s.latch f).slot m = s.slot m :=
  by simp only [State.slot, State.latch_slots]
@[simp] theorem State.egress_latch (s : State) (f : EventFlag) (k' : Side) : (s.latch f).egress k' = s.egress k' :=
  by cases k' <;> simp only [State.egress, State.latch_egressA, State.latch_egressB]
@[simp] theorem State.link_latch (s : State) (f : EventFlag) (m : Side) : (s.latch f).link m = s.link m :=
  by cases m <;> simp only [State.link, State.latch_linkA, State.latch_linkB]
@[simp] theorem State.capture_latch (s : State) (f : EventFlag) (d : CtxId) : (s.latch f).capture d = s.capture d :=
  by cases d <;> simp only [State.capture, State.latch_capture0, State.latch_capture1]
@[simp] theorem State.input_latchIf (s : State) (b : Bool) (f : EventFlag) (j : RfId) : (s.latchIf b f).input j = s.input j :=
  by cases j <;> simp only [State.input, State.latchIf_rf0, State.latchIf_rf1]
@[simp] theorem State.slot_latchIf (s : State) (b : Bool) (f : EventFlag) (m : SlotId) : (s.latchIf b f).slot m = s.slot m :=
  by simp only [State.slot, State.latchIf_slots]
@[simp] theorem State.egress_latchIf (s : State) (b : Bool) (f : EventFlag) (k' : Side) : (s.latchIf b f).egress k' = s.egress k' :=
  by cases k' <;> simp only [State.egress, State.latchIf_egressA, State.latchIf_egressB]
@[simp] theorem State.link_latchIf (s : State) (b : Bool) (f : EventFlag) (m : Side) : (s.latchIf b f).link m = s.link m :=
  by cases m <;> simp only [State.link, State.latchIf_linkA, State.latchIf_linkB]
@[simp] theorem State.capture_latchIf (s : State) (b : Bool) (f : EventFlag) (d : CtxId) : (s.latchIf b f).capture d = s.capture d :=
  by cases d <;> simp only [State.capture, State.latchIf_capture0, State.latchIf_capture1]
@[simp] theorem State.input_setRoute (s : State) (i : Nat) (e : RouteEntry) (j : RfId) : (s.setRoute i e).input j = s.input j :=
  by cases j <;> simp only [State.input, State.setRoute_rf0, State.setRoute_rf1]
@[simp] theorem State.slot_setRoute (s : State) (i : Nat) (e : RouteEntry) (m : SlotId) : (s.setRoute i e).slot m = s.slot m :=
  by simp only [State.slot, State.setRoute_slots]
@[simp] theorem State.egress_setRoute (s : State) (i : Nat) (e : RouteEntry) (f : Side) : (s.setRoute i e).egress f = s.egress f :=
  by cases f <;> simp only [State.egress, State.setRoute_egressA, State.setRoute_egressB]
@[simp] theorem State.link_setRoute (s : State) (i : Nat) (e : RouteEntry) (m : Side) : (s.setRoute i e).link m = s.link m :=
  by cases m <;> simp only [State.link, State.setRoute_linkA, State.setRoute_linkB]
@[simp] theorem State.capture_setRoute (s : State) (i : Nat) (e : RouteEntry) (d : CtxId) : (s.setRoute i e).capture d = s.capture d :=
  by cases d <;> simp only [State.capture, State.setRoute_capture0, State.setRoute_capture1]
@[simp] theorem State.input_setBank (s : State) (b : Fin 8) (k : Bank) (j : RfId) : (s.setBank b k).input j = s.input j :=
  by cases j <;> simp only [State.input, State.setBank_rf0, State.setBank_rf1]
@[simp] theorem State.slot_setBank (s : State) (b : Fin 8) (k : Bank) (m : SlotId) : (s.setBank b k).slot m = s.slot m :=
  by simp only [State.slot, State.setBank_slots]
@[simp] theorem State.egress_setBank (s : State) (b : Fin 8) (k : Bank) (f : Side) : (s.setBank b k).egress f = s.egress f :=
  by cases f <;> simp only [State.egress, State.setBank_egressA, State.setBank_egressB]
@[simp] theorem State.link_setBank (s : State) (b : Fin 8) (k : Bank) (m : Side) : (s.setBank b k).link m = s.link m :=
  by cases m <;> simp only [State.link, State.setBank_linkA, State.setBank_linkB]
@[simp] theorem State.capture_setBank (s : State) (b : Fin 8) (k : Bank) (d : CtxId) : (s.setBank b k).capture d = s.capture d :=
  by cases d <;> simp only [State.capture, State.setBank_capture0, State.setBank_capture1]
@[simp] theorem State.input_useFree (s : State) (k : Nat) (j : RfId) : (s.useFree k).input j = s.input j :=
  by cases j <;> simp only [State.input, State.useFree_rf0, State.useFree_rf1]
@[simp] theorem State.slot_useFree (s : State) (k : Nat) (m : SlotId) : (s.useFree k).slot m = s.slot m :=
  by simp only [State.slot, State.useFree_slots]
@[simp] theorem State.egress_useFree (s : State) (k : Nat) (f : Side) : (s.useFree k).egress f = s.egress f :=
  by cases f <;> simp only [State.egress, State.useFree_egressA, State.useFree_egressB]
@[simp] theorem State.link_useFree (s : State) (k : Nat) (m : Side) : (s.useFree k).link m = s.link m :=
  by cases m <;> simp only [State.link, State.useFree_linkA, State.useFree_linkB]
@[simp] theorem State.capture_useFree (s : State) (k : Nat) (d : CtxId) : (s.useFree k).capture d = s.capture d :=
  by cases d <;> simp only [State.capture, State.useFree_capture0, State.useFree_capture1]
@[simp] theorem State.input_endCaptures (s : State) (n : SlotId) (j : RfId) : (s.endCaptures n).input j = s.input j :=
  by cases j <;> simp only [State.input, State.endCaptures_rf0, State.endCaptures_rf1]
@[simp] theorem State.slot_endCaptures (s : State) (n : SlotId) (m : SlotId) : (s.endCaptures n).slot m = s.slot m :=
  by simp only [State.slot, State.endCaptures_slots]
@[simp] theorem State.egress_endCaptures (s : State) (n : SlotId) (f : Side) : (s.endCaptures n).egress f = s.egress f :=
  by cases f <;> simp only [State.egress, State.endCaptures_egressA, State.endCaptures_egressB]
@[simp] theorem State.link_endCaptures (s : State) (n : SlotId) (m : Side) : (s.endCaptures n).link m = s.link m :=
  by cases m <;> simp only [State.link, State.endCaptures_linkA, State.endCaptures_linkB]
@[simp] theorem State.input_resumeCaptures (s : State) (j : RfId) : (s.resumeCaptures).input j = s.input j :=
  by cases j <;> simp only [State.input, State.resumeCaptures_rf0, State.resumeCaptures_rf1]
@[simp] theorem State.slot_resumeCaptures (s : State) (m : SlotId) : (s.resumeCaptures).slot m = s.slot m :=
  by simp only [State.slot, State.resumeCaptures_slots]
@[simp] theorem State.egress_resumeCaptures (s : State) (f : Side) : (s.resumeCaptures).egress f = s.egress f :=
  by cases f <;> simp only [State.egress, State.resumeCaptures_egressA, State.resumeCaptures_egressB]
@[simp] theorem State.link_resumeCaptures (s : State) (m : Side) : (s.resumeCaptures).link m = s.link m :=
  by cases m <;> simp only [State.link, State.resumeCaptures_linkA, State.resumeCaptures_linkB]
@[simp] theorem State.input_drainTest (s : State) (b : Fin 8) (j : RfId) : (s.drainTest b).input j = s.input j :=
  by cases j <;> simp only [State.input, State.drainTest_rf0, State.drainTest_rf1]
@[simp] theorem State.slot_drainTest (s : State) (b : Fin 8) (m : SlotId) : (s.drainTest b).slot m = s.slot m :=
  by simp only [State.slot, State.drainTest_slots]
@[simp] theorem State.egress_drainTest (s : State) (b : Fin 8) (f : Side) : (s.drainTest b).egress f = s.egress f :=
  by cases f <;> simp only [State.egress, State.drainTest_egressA, State.drainTest_egressB]
@[simp] theorem State.link_drainTest (s : State) (b : Fin 8) (m : Side) : (s.drainTest b).link m = s.link m :=
  by cases m <;> simp only [State.link, State.drainTest_linkA, State.drainTest_linkB]
@[simp] theorem State.capture_drainTest (s : State) (b : Fin 8) (d : CtxId) : (s.drainTest b).capture d = s.capture d :=
  by cases d <;> simp only [State.capture, State.drainTest_capture0, State.drainTest_capture1]

/-! ## The Agent's queues -/

@[simp] theorem Agent.replies_setReplies_same (g : Agent) (l : Side) (q : List Reply) :
    (g.setReplies l q).replies l = q := by cases l <;> rfl

@[simp] theorem Agent.requests_setRequests_same (g : Agent) (l : Side) (q : List (List Byte)) :
    (g.setRequests l q).requests l = q := by cases l <;> rfl

theorem Agent.replies_setReplies (g : Agent) (l m : Side) (q : List Reply) :
    (g.setReplies l q).replies m = if l = m then q else g.replies m := by cases l <;> cases m <;> rfl

theorem Agent.requests_setRequests (g : Agent) (l m : Side) (q : List (List Byte)) :
    (g.setRequests l q).requests m = if l = m then q else g.requests m := by cases l <;> cases m <;> rfl

@[simp] theorem Agent.requests_setReplies (g : Agent) (l m : Side) (q : List Reply) :
    (g.setReplies l q).requests m = g.requests m := by cases l <;> cases m <;> rfl

@[simp] theorem Agent.replies_setRequests (g : Agent) (l m : Side) (q : List (List Byte)) :
    (g.setRequests l q).replies m = g.replies m := by cases l <;> cases m <;> rfl

@[simp] theorem Agent.interval_setReplies (g : Agent) (l : Side) (q : List Reply) :
    (g.setReplies l q).interval = g.interval := by cases l <;> rfl

@[simp] theorem Agent.interval_setRequests (g : Agent) (l : Side) (q : List (List Byte)) :
    (g.setRequests l q).interval = g.interval := by cases l <;> rfl

@[simp] theorem Agent.lastServed_setReplies (g : Agent) (l : Side) (q : List Reply) :
    (g.setReplies l q).lastServed = g.lastServed := by cases l <;> rfl

@[simp] theorem Agent.lastServed_setRequests (g : Agent) (l : Side) (q : List (List Byte)) :
    (g.setRequests l q).lastServed = g.lastServed := by cases l <;> rfl

/-! ## The gates -/

@[simp] theorem State.whenLocked_of_locked (s t : State) (h : s.power = .locked) : s.whenLocked t = t := by
  simp [State.whenLocked, h]

@[simp] theorem State.whenDue_of_due (s t : State) (due : Bool) (h : s.power = .locked) (d : due = true) :
    s.whenDue due t = t := by simp [State.whenDue, h, d]

/-- A gate answers its effect or the state itself. -/
theorem State.whenDue_cases (s t : State) (due : Bool) : s.whenDue due t = t ∨ s.whenDue due t = s := by
  unfold State.whenDue; split <;> simp

theorem State.whenLocked_cases (s t : State) : s.whenLocked t = t ∨ s.whenLocked t = s := by
  unfold State.whenLocked; split <;> simp

/-! ## What frees leave (R123, R126, R189) -/

/-- Several drain tests change the Bank Map alone. -/
theorem State.drainTests_frame (s : State) (ids : List BufferId) :
    ∃ b, ids.foldl (fun t id => t.drainTest id.bank) s = { s with banks := b } := by
  induction ids generalizing s with
  | nil => exact ⟨s.banks, rfl⟩
  | cons id ids ih =>
    obtain ⟨b, hb⟩ := ih (s.drainTest id.bank)
    have h : s.drainTest id.bank = { s with banks := (s.drainTest id.bank).banks } := by
      unfold State.drainTest; split <;> (try split) <;> rfl
    exact ⟨b, by rw [List.foldl_cons, hb, h]⟩

/-- What follows a free changes the Bank Map and the states of the two contexts alone. -/
theorem State.afterFree_frame (s : State) (freed : List BufferId) :
    ∃ b c0 c1, s.afterFree freed = { s with banks := b, capture0 := c0, capture1 := c1 } := by
  obtain ⟨b, hb⟩ := s.drainTests_frame freed
  unfold State.afterFree State.resumeCaptures
  rw [hb]
  split
  · exact ⟨b, _, _, rfl⟩
  · exact ⟨b, s.capture0, s.capture1, rfl⟩

@[simp] theorem State.afterFree_power (s : State) (freed : List BufferId) : (s.afterFree freed).power = s.power := by
  obtain ⟨_, _, _, h⟩ := s.afterFree_frame freed; rw [h]
@[simp] theorem State.afterFree_time (s : State) (freed : List BufferId) : (s.afterFree freed).time = s.time := by
  obtain ⟨_, _, _, h⟩ := s.afterFree_frame freed; rw [h]
@[simp] theorem State.afterFree_rf0 (s : State) (freed : List BufferId) : (s.afterFree freed).rf0 = s.rf0 := by
  obtain ⟨_, _, _, h⟩ := s.afterFree_frame freed; rw [h]
@[simp] theorem State.afterFree_rf1 (s : State) (freed : List BufferId) : (s.afterFree freed).rf1 = s.rf1 := by
  obtain ⟨_, _, _, h⟩ := s.afterFree_frame freed; rw [h]
@[simp] theorem State.afterFree_aux (s : State) (freed : List BufferId) : (s.afterFree freed).aux = s.aux := by
  obtain ⟨_, _, _, h⟩ := s.afterFree_frame freed; rw [h]
@[simp] theorem State.afterFree_slots (s : State) (freed : List BufferId) : (s.afterFree freed).slots = s.slots := by
  obtain ⟨_, _, _, h⟩ := s.afterFree_frame freed; rw [h]
@[simp] theorem State.afterFree_routes (s : State) (freed : List BufferId) : (s.afterFree freed).routes = s.routes := by
  obtain ⟨_, _, _, h⟩ := s.afterFree_frame freed; rw [h]
@[simp] theorem State.afterFree_egressA (s : State) (freed : List BufferId) : (s.afterFree freed).egressA = s.egressA := by
  obtain ⟨_, _, _, h⟩ := s.afterFree_frame freed; rw [h]
@[simp] theorem State.afterFree_egressB (s : State) (freed : List BufferId) : (s.afterFree freed).egressB = s.egressB := by
  obtain ⟨_, _, _, h⟩ := s.afterFree_frame freed; rw [h]
@[simp] theorem State.afterFree_linkA (s : State) (freed : List BufferId) : (s.afterFree freed).linkA = s.linkA := by
  obtain ⟨_, _, _, h⟩ := s.afterFree_frame freed; rw [h]
@[simp] theorem State.afterFree_linkB (s : State) (freed : List BufferId) : (s.afterFree freed).linkB = s.linkB := by
  obtain ⟨_, _, _, h⟩ := s.afterFree_frame freed; rw [h]
@[simp] theorem State.afterFree_agent (s : State) (freed : List BufferId) : (s.afterFree freed).agent = s.agent := by
  obtain ⟨_, _, _, h⟩ := s.afterFree_frame freed; rw [h]
@[simp] theorem State.afterFree_events (s : State) (freed : List BufferId) : (s.afterFree freed).events = s.events := by
  obtain ⟨_, _, _, h⟩ := s.afterFree_frame freed; rw [h]
@[simp] theorem State.afterFree_snapshot (s : State) (freed : List BufferId) : (s.afterFree freed).snapshot = s.snapshot := by
  obtain ⟨_, _, _, h⟩ := s.afterFree_frame freed; rw [h]
@[simp] theorem State.afterFree_freeCount (s : State) (freed : List BufferId) : (s.afterFree freed).freeCount = s.freeCount := by
  obtain ⟨_, _, _, h⟩ := s.afterFree_frame freed; rw [h]
@[simp] theorem State.afterFree_pending (s : State) (freed : List BufferId) : (s.afterFree freed).pending = s.pending := by
  obtain ⟨_, _, _, h⟩ := s.afterFree_frame freed; rw [h]
@[simp] theorem State.input_afterFree (s : State) (freed : List BufferId) (j : RfId) :
    (s.afterFree freed).input j = s.input j :=
  by cases j <;> simp only [State.input, State.afterFree_rf0, State.afterFree_rf1]
@[simp] theorem State.slot_afterFree (s : State) (freed : List BufferId) (m : SlotId) :
    (s.afterFree freed).slot m = s.slot m :=
  by simp only [State.slot, State.afterFree_slots]
@[simp] theorem State.egress_afterFree (s : State) (freed : List BufferId) (f : Side) :
    (s.afterFree freed).egress f = s.egress f :=
  by cases f <;> simp only [State.egress, State.afterFree_egressA, State.afterFree_egressB]
@[simp] theorem State.link_afterFree (s : State) (freed : List BufferId) (m : Side) :
    (s.afterFree freed).link m = s.link m :=
  by cases m <;> simp only [State.link, State.afterFree_linkA, State.afterFree_linkB]

end Sys2Proof.Machine
end

