-- ==== Sys2Proof/Laws/Slots.lean ====
section
/-! SUPPORT. Attempt starts, failures and entries to OFF in the field-by-field forms that the statements use, what the
end of a slot's captures leaves, and the slots of a mask. -/

namespace Sys2Proof.Machine

open Sys2Proof

/-- An attempt start into SENSE, field by field (R20, R35, R37). -/
theorem Slot.startSense_clear (x : Slot) : x.startSense false = attemptStarted .sense 540000 x := by
  simp only [Slot.startSense, Slot.attemptStart, Slot.keepTables, Slot.clearTables, Slot.clearAttempt, Slot.resetItems,
    Slot.dropWindow, Slot.dropMeasurements, Slot.zeroRuns, attemptStarted, ms, Config.senseMeasureMs, Config.ticksPerMs,
    Nat.reduceMul, Bool.false_eq_true, if_false]

/-- The restart at SYNC, field by field (R55). -/
theorem Slot.attemptStart_sync (x : Slot) : x.attemptStart .sync Config.syncLimitMs false = attemptStarted .sync 4050000 x := by
  simp only [Slot.attemptStart, Slot.keepTables, Slot.clearTables, Slot.clearAttempt, Slot.resetItems,
    Slot.dropWindow, Slot.dropMeasurements, Slot.zeroRuns, attemptStarted, ms, Config.syncLimitMs, Config.ticksPerMs,
    Nat.reduceMul, Bool.false_eq_true, if_false]

/-- The entry to OFF, field by field (R28). -/
theorem Slot.toOff_eq (x : Slot) : x.toOff = switchedOff x := by
  simp only [Slot.toOff, Slot.clearTables, Slot.clearAttempt, Slot.resetItems,
    Slot.dropWindow, Slot.dropMeasurements, Slot.zeroRuns, attemptStarted, switchedOff]

/-- A failure that clears the tables, field by field (R50, R51). -/
theorem Slot.fail_eq (r : FailureReason) (x : Slot) (h : r ≠ .windowFail) : x.fail r = failed r x := by
  have hr : (r == FailureReason.windowFail) = false := by simpa using h
  have hb : 1000 * x.backoff * 27000 = x.backoff * 27000000 := by omega
  simp only [Slot.fail, failed, hr, Slot.startSense_clear, bump, Config.counterMax]
  split
  · rfl
  · simp only [Slot.enterBackoff, backedOff, Slot.keepTables, Slot.clearTables,
    Slot.dropWindow, Slot.dropMeasurements, ms, Config.ticksPerMs, Config.backoffMax, Bool.false_eq_true, if_false, hb]

/-- A WINDOW_FAIL, field by field (R51). -/
theorem Slot.fail_window (x : Slot) : x.fail .windowFail = windowFailed x := by
  have hb : 1000 * x.backoff * 27000 = x.backoff * 27000000 := by omega
  simp only [Slot.fail, windowFailed, failed, beq_self_eq_true, bump, Config.counterMax]
  split
  · simp only [Slot.startSense, Slot.attemptStart, Slot.keepTables, Slot.clearTables, Slot.clearAttempt, Slot.resetItems,
    Slot.dropWindow, Slot.dropMeasurements, Slot.zeroRuns, attemptStarted, ms, Config.senseMeasureMs, Config.ticksPerMs,
    Nat.reduceMul, if_true]
  · simp only [Slot.enterBackoff, backedOff, Slot.keepTables, Slot.clearTables,
    Slot.dropWindow, Slot.dropMeasurements, ms, Config.ticksPerMs, Config.backoffMax, if_true, hb]

/-- What a slot's exit from TRACK does to a context (R56). -/
theorem CaptureContext.slotLeft_eq (n : SlotId) (c : CaptureContext) : c.slotLeft n = leftTrack n c := by
  simp [CaptureContext.slotLeft, leftTrack, CaptureContext.watches, CaptureContext.finish, endedWith]

theorem State.capture_endCaptures (s : State) (n : SlotId) (c : CtxId) :
    (s.endCaptures n).capture c = leftTrack n (s.capture c) := by
  cases c <;> simp [State.endCaptures, State.capture, CaptureContext.slotLeft_eq]

/-! ## The slots of a mask -/

theorem maskSlots_bit (n : SlotId) : maskSlots (slotBit n) = [n] := by revert n; decide
theorem maskOk_bit (n : SlotId) : maskOk (slotBit n) = true := by revert n; decide
theorem mem_allSlots (n : SlotId) : n ∈ allSlots := by revert n; decide
theorem mem_maskSlots (m : Byte) (n : SlotId) : n ∈ maskSlots m ↔ m.getLsbD n.val = true := by
  simp [maskSlots, mem_allSlots]
theorem nodup_maskSlots (m : Byte) : (maskSlots m).Nodup := List.Nodup.filter _ (by decide)


/-- SLOT_SET over a set of slots: each takes the fields into its programmed record, the others stay (R25). -/
theorem slot_programmed (p : SlotSetParams) (s : State) (ns : List SlotId) (hn : ns.Nodup) (m : SlotId) :
    (ns.foldl (State.program p) s).slot m =
      if m ∈ ns then { s.slot m with programmed := setWrite p (s.slot m).programmed } else s.slot m := by
  induction ns generalizing s with
  | nil => simp
  | cons n ns ih =>
    obtain ⟨h1, h2⟩ := List.nodup_cons.1 hn
    rw [List.foldl_cons, ih _ h2]
    by_cases hm : m = n
    · subst hm; simp [h1, State.program]
    · have : (State.program p s n).slot m = s.slot m := State.slot_setSlot_other _ _ _ _ (Ne.symm hm)
      simp [this, hm]

theorem program_frame (p : SlotSetParams) (s : State) (ns : List SlotId) :
    ns.foldl (State.program p) s = { s with slots := (ns.foldl (State.program p) s).slots } := by
  induction ns generalizing s with
  | nil => rfl
  | cons n ns ih => rw [List.foldl_cons, ih]; rfl

end Sys2Proof.Machine
end

