-- ==== Sys2Proof/Laws/Acquisition.lean ====
section
/-! SUPPORT. The sorting and the measurements of the echo table, signalling words, and what a rebuild and a latch leave. -/

namespace Sys2Proof.Machine

open Sys2Proof

@[simp] theorem State.setSlot_setSlot (s : State) (n : SlotId) (a b : Slot) :
    (s.setSlot n a).setSlot n b = s.setSlot n b := by simp [State.setSlot]

/-- A latch and a slot's update commute. -/
theorem State.setSlot_latch (s : State) (n : SlotId) (a : Slot) (f : EventFlag) :
    (s.latch f).setSlot n a = (s.setSlot n a).latch f := rfl

/-- A latch sets its flag among the latched ones (R194). -/
theorem latchEvent_latched (f : EventFlag) (u : EventUnit) : (latchEvent f u).latched = u.latched ||| flagMask f := by
  simp only [latchEvent, settleAlerts]; split
  · rfl
  · split <;> rfl

/-- The second of two consecutive words (R44). -/
theorem followsWord_some (h : SigWord) (w : SigWord) : followsWord (some h) w = true ↔ w = { h with frameIndex := h.frameIndex + 1 } := by
  obtain ⟨a,b,c,d,e,f,g⟩ := h
  obtain ⟨a',b',c',d',e',f',g'⟩ := w
  simp [followsWord]; grind

/-- A rebuild leaves the acquisition state, change pending and the frame position. -/
theorem Slot.rebuild_keeps (x : Slot) (ar) : (x.rebuild ar).acq = x.acq ∧ (x.rebuild ar).changePending = x.changePending ∧ (x.rebuild ar).framePos = x.framePos := by
  have h2 : ∀ x : Slot, (x.followMain ar).acq = x.acq ∧ (x.followMain ar).changePending = x.changePending ∧ (x.followMain ar).framePos = x.framePos := by
    intro x; unfold Slot.followMain; split <;> simp
  have h3 : ∀ x : Slot, x.track.acq = x.acq ∧ x.track.changePending = x.changePending ∧ x.track.framePos = x.framePos := by
    intro x; unfold Slot.track; split
    · split <;> simp
    · simp
  unfold Slot.rebuild
  obtain ⟨a, b, c⟩ := h3 ((x.measureEcho ar).followMain ar)
  obtain ⟨d, e, f⟩ := h2 (x.measureEcho ar)
  exact ⟨a.trans d, b.trans e, c.trans f⟩

/-- A decided move, and none (R78). -/
theorem Slot.track_moves (x : Slot) {c : Candidate} {r : Int} (ht : x.top = some c) (hw : x.window = some r)
    (hb : x.beats c r = true) : x.track = { x with window := some c.reference, movePending := true } := by
  unfold Slot.track; rw [ht, hw]; simp [hb]

theorem Slot.track_stays (x : Slot) (h : ¬∃ c r, x.top = some c ∧ x.window = some r ∧ x.beats c r = true) :
    x.track = x := by
  unfold Slot.track; split
  · next c r ht hw => rw [if_neg fun hb => h ⟨c, r, ht, hw, hb⟩]
  · rfl

/-- A rebuild changes the table, its total and ranking, the main shift, the timing reference and the window with its move. -/
theorem Slot.rebuild_frame (x : Slot) (ar : List Arrival) :
    let y := x.rebuild ar
    y = { x with
      echo := y.echo, total := y.total, candidates := y.candidates, mainShift := y.mainShift, timingRef := y.timingRef
      window := y.window, movePending := y.movePending } := by
  have t : ∀ z : Slot, z.track = { z with window := z.track.window, movePending := z.track.movePending } := by
    intro z; unfold Slot.track; split
    · split <;> rfl
    · rfl
  have f : ∀ z : Slot, z.followMain ar = { z with
      timingRef := (z.followMain ar).timingRef, mainShift := (z.followMain ar).mainShift
      window := (z.followMain ar).window } := by
    intro z; unfold Slot.followMain; split <;> rfl
  intro y
  have e : y = ((x.measureEcho ar).followMain ar).track := rfl
  rw [e, t, f]; rfl

/-- A rebuild reads neither the frame position nor the half-made agreement. -/
theorem Slot.rebuild_advance (x : Slot) (ar) (q : BitVec 2) (h : Option SigWord) :
    ({ x with framePos := q, halfMade := h } : Slot).rebuild ar = { x.rebuild ar with framePos := q, halfMade := h } := by
  have f : ∀ z : Slot, ({ z with framePos := q, halfMade := h } : Slot).followMain ar =
      { z.followMain ar with framePos := q, halfMade := h } := by
    intro z; unfold Slot.followMain; cases mainArrival ar <;> rfl
  have t : ∀ z : Slot, ({ z with framePos := q, halfMade := h } : Slot).track = { z.track with framePos := q, halfMade := h } := by
    intro z
    by_cases hm : ∃ c r, z.top = some c ∧ z.window = some r ∧ z.beats c r = true
    · obtain ⟨c, r, ht, hw, hb⟩ := hm
      rw [z.track_moves ht hw hb]
      exact Slot.track_moves _ ht hw hb
    · rw [z.track_stays hm]
      exact Slot.track_stays _ hm
  show ((({ x.measureEcho ar with framePos := q, halfMade := h } : Slot).followMain ar).track) = _
  rw [f, t]; rfl

theorem insertBy_perm {α} (b : α → α → Bool) (a : α) (l : List α) : (insertBy b a l).Perm (a :: l) := by
  induction l with
  | nil => exact List.Perm.refl _
  | cons c l ih => unfold insertBy; split
                   · exact List.Perm.refl _
                   · exact (List.Perm.cons c ih).trans (List.Perm.swap a c l)
/-- A sorted list holds the same items. -/
theorem sortBy_perm {α} (b : α → α → Bool) (l : List α) : (sortBy b l).Perm l := by
  induction l with
  | nil => exact List.Perm.refl _
  | cons c l ih => exact (insertBy_perm b c _).trans (List.Perm.cons c ih)

/-- Insertion by a transitive order keeps a sorted list sorted. -/
theorem insertBy_sorted {α} (b : α → α → Bool) (tr : ∀ x y z, b x y = true → b y z = true → b x z = true) (a : α)
    (l : List α) (h : l.Pairwise fun x y => b x y = true) (tot : ∀ x ∈ l, b a x = true ∨ b x a = true) :
    (insertBy b a l).Pairwise fun x y => b x y = true := by
  induction l with
  | nil => simp [insertBy]
  | cons c l ih =>
    obtain ⟨h1, h2⟩ := List.pairwise_cons.1 h
    unfold insertBy; split
    · next hb =>
      refine List.pairwise_cons.2 ⟨fun x hx => ?_, h⟩
      rcases List.mem_cons.1 hx with rfl | hx
      · exact hb
      · exact tr _ _ _ hb (h1 x hx)
    · next hb =>
      refine List.pairwise_cons.2 ⟨fun x hx => ?_, ih h2 fun x hx => tot x (by simp [hx])⟩
      rcases List.mem_cons.1 ((insertBy_perm _ _ _).mem_iff.1 hx) with rfl | hx
      · exact (tot c (by simp)).resolve_left hb
      · exact h1 x hx

/-- Sorting by a transitive order that is total on the list's entries leaves them in that order. -/
theorem sortBy_sorted {α} (b : α → α → Bool) (tr : ∀ x y z, b x y = true → b y z = true → b x z = true)
    (l : List α) (tot : l.Pairwise fun x y => b x y = true ∨ b y x = true) :
    (sortBy b l).Pairwise fun x y => b x y = true := by
  induction l with
  | nil => simp [sortBy]
  | cons a l ih =>
    obtain ⟨h1, h2⟩ := List.pairwise_cons.1 tot
    exact insertBy_sorted b tr a _ (ih h2) fun x hx => h1 x ((sortBy_perm _ _).mem_iff.1 hx)

/-- The first k of a sorted list are the entries that fewer than k precede. -/
theorem mem_take_sorted {α} (b : α → α → Bool) (irr : ∀ x, b x x = false)
    (tr : ∀ x y z, b x y = true → b y z = true → b x z = true) (l : List α) (h : l.Pairwise fun x y => b x y = true) (k : Nat) (x : α) :
    x ∈ l.take k ↔ x ∈ l ∧ l.countP (fun y => b y x) < k := by
  have asym : ∀ x y, b x y = true → b y x = false := fun x y h1 => by
    cases h2 : b y x with
    | false => rfl
    | true => rw [← irr x]; exact (tr _ _ _ h1 h2).symm
  induction l generalizing k with
  | nil => simp
  | cons a l ih =>
    obtain ⟨h1, h2⟩ := List.pairwise_cons.1 h
    cases k with
    | zero => simp
    | succ k =>
      simp only [List.take_succ_cons, List.mem_cons, ih h2, List.countP_cons]
      constructor
      · rintro (rfl | ⟨hx, hc⟩)
        · have : l.countP (fun y => b y x) = 0 := by
            rw [List.countP_eq_zero]; intro y hy; simp [asym _ _ (h1 y hy)]
          simp [this, irr]
        · refine ⟨.inr hx, ?_⟩; split <;> omega
      · rintro ⟨rfl | hx, hc⟩
        · exact .inl rfl
        · refine .inr ⟨hx, ?_⟩; rw [if_pos (h1 x hx)] at hc; omega

/-- Paths of different delays sorted by delay. -/
theorem sortBy_earlierPath (l : List EchoPath) (hd : l.Pairwise fun p q => p.delay ≠ q.delay) :
    (sortBy earlierPath l).Pairwise fun p q => p.delay < q.delay := by
  refine (sortBy_sorted earlierPath ?_ l (hd.imp ?_)).imp ?_ <;> simp only [earlierPath, decide_eq_true_eq] <;> omega

theorem joinArrival_mem (a : Arrival) (l : List Arrival) (p) (h : p ∈ joinArrival a l) (ha : 0 < a.power) (hl : ∀ q ∈ l, 0 < q.power): 0 < p.power ∧ (p.position = a.position ∨ ∃ q ∈ l, p.position = q.position) := by
  induction l with
  | nil => simp [joinArrival] at h; subst h; exact ⟨ha, .inl rfl⟩
  | cons b l ih =>
    unfold joinArrival at h; split at h
    · rcases List.mem_cons.1 h with rfl | h
      · exact ⟨ha, .inl rfl⟩
      · exact ⟨hl _ h, .inr ⟨_, h, rfl⟩⟩
    · split at h
      · rcases List.mem_cons.1 h with rfl | h
        · exact ⟨by simp; omega, .inr ⟨b, by simp, rfl⟩⟩
        · exact ⟨hl _ (by simp [h]), .inr ⟨p, by simp [h], rfl⟩⟩
      · rcases List.mem_cons.1 h with rfl | h
        · exact ⟨hl _ (by simp), .inr ⟨_, by simp, rfl⟩⟩
        · obtain ⟨i1, i2⟩ := ih h (fun q hq => hl q (by simp [hq]))
          refine ⟨i1, ?_⟩
          rcases i2 with i2 | ⟨q, hq, e⟩
          · exact .inl i2
          · exact .inr ⟨q, by simp [hq], e⟩
theorem joinArrival_sorted (a : Arrival) (l : List Arrival) (h : l.Pairwise fun p q => p.position < q.position) (ha : 0 < a.power) (hl : ∀ q ∈ l, 0 < q.power) : (joinArrival a l).Pairwise fun p q => p.position < q.position := by
  induction l with
  | nil => simp [joinArrival]
  | cons b l ih =>
    obtain ⟨h1, h2⟩ := List.pairwise_cons.1 h
    unfold joinArrival; split
    · refine List.pairwise_cons.2 ⟨?_, h⟩
      intro q hq; rcases List.mem_cons.1 hq with rfl | hq
      · assumption
      · have := h1 q hq; omega
    · split
      · exact List.pairwise_cons.2 ⟨h1, h2⟩
      · refine List.pairwise_cons.2 ⟨?_, ih h2 (fun q hq => hl q (by simp [hq]))⟩
        intro q hq
        rcases (joinArrival_mem a l q hq ha (fun q hq => hl q (by simp [hq]))).2 with e | ⟨q', hq', e⟩
        · omega
        · have := h1 q' hq'; omega

/-- The resolved paths stand in ascending position, each with power (R64). -/
theorem resolvedPaths_spec (ar : List Arrival) : (resolvedPaths ar).Pairwise (fun p q => p.position < q.position) ∧ ∀ q ∈ resolvedPaths ar, 0 < q.power := by
  unfold resolvedPaths
  have : ∀ l : List Arrival, (∀ a ∈ l, 0 < a.power) → (l.foldr joinArrival []).Pairwise (fun p q => p.position < q.position) ∧ ∀ q ∈ l.foldr joinArrival [], 0 < q.power := by
    intro l hl
    induction l with
    | nil => simp
    | cons a l ih =>
      obtain ⟨i1, i2⟩ := ih (fun q hq => hl q (by simp [hq]))
      refine ⟨joinArrival_sorted _ _ i1 (hl a (by simp)) i2, ?_⟩
      intro q hq; exact (joinArrival_mem _ _ _ hq (hl a (by simp)) i2).1
  exact this _ (by simp)

/-- The combined power of the arrivals at a position. -/
abbrev powerAt (l : List Arrival) (q : Int) : Nat := (l.map fun a => if a.position = q then a.power else 0).sum

/-- A join adds its arrival's power at its position and nowhere else. -/
theorem powerAt_join (a : Arrival) (l : List Arrival) (q : Int) : powerAt (joinArrival a l) q = powerAt (a :: l) q := by
  induction l with
  | nil => rfl
  | cons b l ih =>
    simp only [powerAt] at ih
    unfold joinArrival; split
    · rfl
    · split
      · next h => simp only [powerAt, List.map_cons, List.sum_cons, h]; split <;> omega
      · simp only [powerAt, List.map_cons, List.sum_cons] at ih ⊢; omega

/-- Resolving keeps the combined power of every position. -/
theorem powerAt_resolved (l : List Arrival) (q : Int) : powerAt (resolvedPaths l) q = powerAt l q := by
  unfold resolvedPaths
  induction l with
  | nil => rfl
  | cons a l ih =>
    by_cases h : 0 < a.power
    · rw [List.filter_cons_of_pos (by simpa using h), List.foldr_cons, powerAt_join]
      simp only [powerAt, List.map_cons, List.sum_cons] at ih ⊢; rw [ih]
    · rw [List.filter_cons_of_neg (by simpa using h), ih]
      have : a.power = 0 := by omega
      simp [powerAt, this]

/-- The resolved paths are the positions with power, each with its combined power (R64). -/
theorem mem_resolvedPaths (l : List Arrival) (a : Arrival) :
    a ∈ resolvedPaths l ↔ 0 < a.power ∧ a.power = powerAt l a.position := by
  rw [← powerAt_resolved]
  obtain ⟨h1, h2⟩ := resolvedPaths_spec l
  generalize resolvedPaths l = m at h1 h2
  induction m with
  | nil => simp [powerAt]; intro h; omega
  | cons b m ih =>
    obtain ⟨h3, h4⟩ := List.pairwise_cons.1 h1
    have ih := ih h4 fun q hq => h2 q (by simp [hq])
    have z : ∀ q, q ≤ b.position → powerAt m q = 0 := by
      intro q hq
      have : ∀ x ∈ (m.map fun a => if a.position = q then a.power else 0), x = 0 := by
        intro x hx
        obtain ⟨c, hc, rfl⟩ := List.mem_map.1 hx
        have := h3 c hc
        rw [if_neg (by omega)]
      exact List.sum_eq_zero this
    simp only [List.mem_cons, ih]
    simp only [powerAt, List.map_cons, List.sum_cons] at z ⊢
    by_cases e : b.position = a.position
    · rw [if_pos e, z _ (by omega)]
      have hb := h2 b (by simp)
      constructor
      · rintro (rfl | h)
        · simp [hb]
        · omega
      · rintro ⟨_, h⟩
        left; cases a; cases b; simp_all
    · rw [if_neg e, Nat.zero_add]
      refine or_iff_right ?_
      rintro rfl; exact e rfl

/-- The main path is a resolved path at least as strong as every other (R65). -/
theorem strongest_spec (l : List Arrival) (m) (h : strongest l = some m) : m ∈ l ∧ (∀ q ∈ l, q.power ≤ m.power) := by
  induction l generalizing m with
  | nil => simp [strongest] at h
  | cons a l ih =>
    unfold strongest at h
    split at h
    · next hn => 
      have : l = [] := by
        cases l with
        | nil => rfl
        | cons b l => unfold strongest at hn; split at hn <;> (try split at hn) <;> simp at hn
      simp at h; subst h this; simp
    · next b hb =>
      obtain ⟨i1, i2⟩ := ih b hb
      split at h
      · simp at h; subst h; refine ⟨by simp, ?_⟩
        intro q hq; rcases List.mem_cons.1 hq with rfl | hq
        · exact Nat.le_refl _
        · have := i2 q hq; omega
      · simp at h; subst h; refine ⟨by simp [i1], ?_⟩
        intro q hq; rcases List.mem_cons.1 hq with rfl | hq
        · omega
        · exact i2 q hq

end Sys2Proof.Machine
end

