-- ==== Sys2Proof/Laws/Egress.lean ====
section
/-! SUPPORT. What packing, a null packet, a selection and the end of a stream do to an egress, the cells that packing
completes, and the nibbles of a Continuity Table's page. -/

namespace Sys2Proof.Machine

open Sys2Proof

/-- One byte packed: the stream grows by it, and the cell assembly keeps room (R152). -/
theorem Egress.packByte_spec (x : Egress) (b : Byte) (h : x.assembly.bytes.length < 60) :
    (x.packByte b).streamBytes = x.streamBytes ++ [b] ∧ (x.packByte b).assembly.bytes.length < 60 ∧
    ∃ cells cell, x.packByte b = { x with txBuffer := cells, assembly := cell } := by
  unfold Egress.packByte
  split
  · exact ⟨by simp [Egress.streamBytes, Assembly.empty], by simp [Assembly.empty], _, _, rfl⟩
  · exact ⟨by simp [Egress.streamBytes], by simp; omega, x.txBuffer, _, rfl⟩

/-- Several bytes packed. -/
theorem Egress.packBytes_spec (bs : List Byte) (x : Egress) (h : x.assembly.bytes.length < 60) :
    (bs.foldl Egress.packByte x).streamBytes = x.streamBytes ++ bs ∧
    (bs.foldl Egress.packByte x).assembly.bytes.length < 60 ∧
    ∃ cells cell, bs.foldl Egress.packByte x = { x with txBuffer := cells, assembly := cell } := by
  induction bs generalizing x with
  | nil => exact ⟨by simp, h, x.txBuffer, x.assembly, rfl⟩
  | cons b bs ih =>
    obtain ⟨a1, a2, c1, d1, a3⟩ := x.packByte_spec b h
    obtain ⟨i1, i2, c2, d2, i3⟩ := ih (x.packByte b) a2
    rw [List.foldl_cons]
    exact ⟨by rw [i1, a1]; simp, i2, c2, d2, by rw [i3, a3]⟩

/-- A packet appended: the stream grows by its 188 bytes, and nothing but the cells changes (R152). -/
theorem Egress.appendPacket_spec (p : Packet) (x : Egress) (h : x.assembly.bytes.length < 60) :
    (x.appendPacket p).streamBytes = x.streamBytes ++ p.toList ∧ (x.appendPacket p).assembly.bytes.length < 60 ∧
    ∃ cells cell, x.appendPacket p = { x with txBuffer := cells, assembly := cell } := by
  obtain ⟨m1, m2, m3⟩ : x.markStart.streamBytes = x.streamBytes ∧ x.markStart.assembly.bytes = x.assembly.bytes ∧
      ∃ cell, x.markStart = { x with assembly := cell } := by
    unfold Egress.markStart
    split
    · exact ⟨rfl, rfl, _, rfl⟩
    · exact ⟨rfl, rfl, x.assembly, rfl⟩
  obtain ⟨d, m3⟩ := m3
  obtain ⟨a1, a2, c2, d2, a3⟩ := Egress.packBytes_spec p.toList x.markStart (by rw [m2]; exact h)
  exact ⟨by rw [← m1]; exact a1, a2, c2, d2, by unfold Egress.appendPacket; rw [a3, m3]⟩

/-- The bytes of the null packet (R148). -/
theorem nullPacket_bytes : nullPacket.toList = [0x47, 0x1F, 0xFF, 0x10] ++ List.replicate 184 0xFF := by decide +kernel

/-- A null packet appended and counted (R148). -/
theorem Egress.sendNull_spec (x : Egress) (h : x.assembly.bytes.length < 60) :
    x.sendNull.streamBytes = x.streamBytes ++ ([0x47, 0x1F, 0xFF, 0x10] ++ List.replicate 184 0xFF) ∧
    x.sendNull.assembly.bytes.length < 60 ∧
    ∃ cells cell, x.sendNull = { x with
      txBuffer := cells, assembly := cell
      counters := { x.counters with nulls := min (x.counters.nulls + 1) 4294967295 } } := by
  obtain ⟨a1, a2, c, d, a3⟩ := x.appendPacket_spec nullPacket h
  have hs : x.sendNull.streamBytes = (x.appendPacket nullPacket).streamBytes := by
    simp only [Egress.sendNull, Egress.streamBytes]
  have hb : x.sendNull.assembly = (x.appendPacket nullPacket).assembly := by simp only [Egress.sendNull]
  exact ⟨by rw [hs, a1, nullPacket_bytes], by rw [hb]; exact a2, c, d, by simp only [Egress.sendNull, a3, bump, Config.counterMax]⟩

/-- With every sub-queue empty no buffer is selected (R146, R148). -/
theorem Egress.select_of_empty (x : Egress) (h : ∀ n : SlotId, x.queues[n] = []) : x.select = none := by
  unfold Egress.select; rw [List.findSome?_eq_none_iff]; intro n _; rw [h n]

/-- A selection names a sub-queue with its head and its rest (R146). -/
theorem Egress.select_spec (x : Egress) {n : SlotId} {b : Buffer} {rest : List Buffer}
    (h : x.select = some (n, b, rest)) : x.queues[n] = b :: rest := by
  unfold Egress.select at h
  rw [List.findSome?_eq_some_iff] at h
  obtain ⟨_, m, _, _, hm, _⟩ := h
  split at hm
  · simp at hm
  · next hq => simp at hm; obtain ⟨rfl, rfl, rfl⟩ := hm; exact hq

/-- While any sub-queue holds a buffer one is selected (R146, R149, R151). -/
theorem Egress.select_ne_none (x : Egress) (n : SlotId) (h : x.queues[n] ≠ []) : x.select ≠ none := by
  intro hs
  unfold Egress.select at hs
  rw [List.findSome?_eq_none_iff] at hs
  have hn : n ∈ x.order := by
    unfold Egress.order
    split
    · have hall : ∀ p m : SlotId, m ∈ allSlots.map fun k => p + 1 + k := by decide
      exact hall _ _
    · have hall : ∀ m : SlotId, m ∈ allSlots := by decide
      exact hall n
  have := hs n hn
  split at this
  · exact h ‹_›
  · simp at this

/-! ## The cells of packing (R152) -/

/-- A byte that fills the assembly completes a cell, and the assembly is empty again. -/
theorem Egress.packByte_full (x : Egress) (b : Byte) (h : x.assembly.bytes.length + 1 = 60) :
    x.packByte b = { x with
      txBuffer := x.txBuffer ++ [⟨x.assembly.bytes ++ [b], x.assembly.startOffset, false⟩]
      assembly := Assembly.empty } := by
  simp [Egress.packByte, h]

/-- Another byte joins the partial cell. -/
theorem Egress.packByte_room (x : Egress) (b : Byte) (h : x.assembly.bytes.length + 1 ≠ 60) :
    x.packByte b = { x with assembly := { x.assembly with bytes := x.assembly.bytes ++ [b] } } := by
  simp [Egress.packByte, h]

/-- Bytes that complete no cell leave the assembly's start offset and mark. -/
theorem Egress.packBytes_room (bs : List Byte) (x : Egress) (h : x.assembly.bytes.length + bs.length < 60) :
    (bs.foldl Egress.packByte x).assembly.startOffset = x.assembly.startOffset ∧
    (bs.foldl Egress.packByte x).assembly.isEnd = x.assembly.isEnd := by
  induction bs generalizing x with
  | nil => exact ⟨rfl, rfl⟩
  | cons b bs ih =>
    simp only [List.length_cons] at h
    rw [List.foldl_cons, x.packByte_room b (by omega)]
    exact ih _ (by simp; omega)

/-- The cells that several bytes complete, and the partial cell that remains. -/
theorem Egress.packBytes_cells (bs : List Byte) (x : Egress) (h : x.assembly.bytes.length < 60) :
    ∃ cells, (bs.foldl Egress.packByte x).txBuffer = x.txBuffer ++ cells ∧
      cells.length = (x.assembly.bytes.length + bs.length) / 60 ∧
      (∀ c ∈ cells, c.payload.length = 60 ∧ c.isEnd = false) ∧
      (cells.map StreamCell.startOffset =
        if cells = [] then [] else x.assembly.startOffset :: List.replicate (cells.length - 1) 255) ∧
      (bs.foldl Egress.packByte x).assembly.bytes.length = (x.assembly.bytes.length + bs.length) % 60 ∧
      (cells ≠ [] → (bs.foldl Egress.packByte x).assembly.startOffset = 255 ∧
        (bs.foldl Egress.packByte x).assembly.isEnd = false) := by
  induction bs generalizing x with
  | nil => exact ⟨[], by simp, by simp; omega, by simp, by simp, by simp; omega, by simp⟩
  | cons b bs ih =>
    rw [List.foldl_cons]
    by_cases hf : x.assembly.bytes.length + 1 = 60
    · obtain ⟨cells, h1, h2, h3, h4, h5, h6⟩ := ih (x.packByte b) (by rw [x.packByte_full b hf]; simp [Assembly.empty])
      rw [x.packByte_full b hf] at h1 h2 h4 h5 h6 ⊢
      simp only [Assembly.empty, Config.noStart, List.length_nil] at h1 h2 h4 h5
      refine ⟨⟨x.assembly.bytes ++ [b], x.assembly.startOffset, false⟩ :: cells, ?_, ?_, ?_, ?_, ?_, fun _ => ?_⟩
      · simpa [Assembly.empty, Config.noStart] using h1
      · simp [h2]; omega
      · intro c hc
        rcases List.mem_cons.1 hc with rfl | hc
        · simp [hf]
        · exact h3 c hc
      · rw [List.map_cons, h4]
        cases cells <;> simp [List.replicate]
      · simp only [Assembly.empty, Config.noStart, List.length_cons, h5]; omega
      · cases cells with
        | nil =>
          have hr := Egress.packBytes_room bs { x with
            txBuffer := x.txBuffer ++ [⟨x.assembly.bytes ++ [b], x.assembly.startOffset, false⟩]
            assembly := Assembly.empty } (by simp [Assembly.empty] at h2 ⊢; omega)
          simpa [Assembly.empty, Config.noStart] using hr
        | cons a as => exact h6 (by simp)
    · obtain ⟨cells, h1, h2, h3, h4, h5, h6⟩ := ih (x.packByte b) (by rw [x.packByte_room b hf]; simp; omega)
      rw [x.packByte_room b hf] at h1 h2 h4 h5 h6 ⊢
      simp only [List.length_append, List.length_cons, List.length_nil] at h1 h2 h4 h5 h6
      exact ⟨cells, h1, by simp [h2]; omega, h3, h4, by simp [h5]; omega, h6⟩

/-- The cells of an appended packet: 4 when the fill was 52 or more, else 3; the first keeps its start offset or takes the
fill as one, and no packet starts in the others or in the partial cell that remains. -/
theorem Egress.appendPacket_cells (p : Packet) (x : Egress) (h : x.assembly.bytes.length < 60) :
    ∃ cells : List StreamCell, (x.appendPacket p).txBuffer = x.txBuffer ++ cells ∧
      cells.length = (if 52 ≤ x.assembly.bytes.length then 4 else 3) ∧
      (∀ c ∈ cells, c.payload.length = 60 ∧ c.isEnd = false) ∧
      cells.map StreamCell.startOffset =
        (if x.assembly.startOffset = 255 then BitVec.ofNat 8 x.assembly.bytes.length else x.assembly.startOffset) ::
          List.replicate (cells.length - 1) 255 ∧
      (x.appendPacket p).assembly.bytes.length = (x.assembly.bytes.length + 188) % 60 ∧
      (x.appendPacket p).assembly.startOffset = 255 ∧ (x.appendPacket p).assembly.isEnd = false := by
  obtain ⟨hb, ht⟩ : x.markStart.assembly.bytes = x.assembly.bytes ∧ x.markStart.txBuffer = x.txBuffer := by
    unfold Egress.markStart; split <;> exact ⟨rfl, rfl⟩
  have hs : x.markStart.assembly.startOffset =
      (if x.assembly.startOffset = 255 then BitVec.ofNat 8 x.assembly.bytes.length else x.assembly.startOffset) := by
    unfold Egress.markStart; simp only [Config.noStart]; split <;> rfl
  obtain ⟨cells, h1, h2, h3, h4, h5, h6⟩ := Egress.packBytes_cells p.toList x.markStart (by rw [hb]; exact h)
  rw [hb] at h2 h5
  simp only [Vector.length_toList] at h2 h5
  have hl : cells.length = (if 52 ≤ x.assembly.bytes.length then 4 else 3) := by rw [h2]; split <;> omega
  have hc : cells ≠ [] := by intro e; rw [e] at hl; simp at hl; split at hl <;> omega
  rw [if_neg hc, hs] at h4
  rw [ht] at h1
  exact ⟨cells, h1, hl, h3, h4, h5, h6 hc⟩

/-! ## The end of a stream (R141) -/

theorem markLast_snoc (cells : List StreamCell) (c : StreamCell) :
    markLast (cells ++ [c]) = cells ++ [{ c with isEnd := true }] := by
  induction cells with
  | nil => rfl
  | cons d ds ih =>
    cases ds with
    | nil => rfl
    | cons e es => simpa [markLast] using ih

/-- A stopped egress: its stream ends with one END cell, the sub-queues are empty, no slot is due. -/
theorem Egress.stop_spec (x : Egress) :
    StreamEnded x x.stop ∧ x.stop.acc = x.acc ∧ x.stop.dueStamps = [] ∧ (∀ n : SlotId, x.stop.queues[n] = []) ∧
    x.stop.run = .stopping := by
  refine ⟨⟨?_, ?_, ?_, ?_⟩, ?_, rfl, ?_, rfl⟩
  · intro c cs h1 h2
    simp [Egress.stop, Egress.endStream, h1, Config.txDepth, h2, fillPayload, Assembly.empty, Config.noStart]
  · intro c cs h1 h2
    have : ¬ x.txBuffer.length < 4 := by omega
    simp [Egress.stop, Egress.endStream, h1, Config.txDepth, this, fillPayload]
  · intro cells c h1 h2
    simp [Egress.stop, Egress.endStream, h1, h2, markLast_snoc]
  · intro h1 h2
    simp [Egress.stop, Egress.endStream, h1, h2, fillPayload, Config.noStart]
  · simp only [Egress.stop, Egress.endStream]; split <;> (try split) <;> rfl
  · intro n; simp [Egress.stop]

/-! ## The nibbles of page 3 (R156) -/

/-- Values of 4 bits two to a byte, the first in the upper half, an odd last one above 0. -/
theorem nibblePairs_eq (l : List (BitVec 4)) :
    nibblePairs l = (List.range ((l.length + 1) / 2)).map fun k =>
      BitVec.ofNat 8 (16 * (l[2 * k]?.map BitVec.toNat).getD 0 + (l[2 * k + 1]?.map BitVec.toNat).getD 0) := by
  have join : ∀ a b : BitVec 4, a ++ b = BitVec.ofNat 8 (16 * a.toNat + b.toNat) := by decide
  induction l using nibblePairs.induct with
  | case1 => rfl
  | case2 a => simp [nibblePairs, join]
  | case3 a b rest ih =>
    rw [nibblePairs, ih]
    have : (a :: b :: rest).length + 1 = (rest.length + 1) + 2 := by simp
    rw [this, Nat.add_div_right _ (by omega), List.range_succ_eq_map, List.map_cons, List.map_map]
    congr 1
    simpa using join a b

end Sys2Proof.Machine
end

