-- ==== Sys2Proof/Laws/Events.lean ====
section
/-! SUPPORT. The event flags: their numbers, the summary and its groups, and what latches leave of the event unit. -/

namespace Sys2Proof.Machine

open Sys2Proof

theorem flagNumber_lt (f : EventFlag) : flagNumber f < 45 := by
  cases f <;> (try cases ‹Side›) <;> (try cases ‹RfId›) <;> (try cases ‹CtxId›) <;> simp [flagNumber] <;> omega

/-- The event set of one flag holds that flag's number alone. -/
theorem getLsbD_flagMask (f : EventFlag) (k : Nat) : (flagMask f).getLsbD k = true ↔ k = flagNumber f := by
  have h := flagNumber_lt f
  show (BitVec.ofNat 45 (1 <<< flagNumber f)).getLsbD k = true ↔ _
  simp only [BitVec.getLsbD_ofNat, Nat.one_shiftLeft, Nat.testBit_two_pow, Bool.and_eq_true, decide_eq_true_eq]
  omega

/-- A flag is latched after a latch when it was before or is the one latched (R194). -/
theorem getLsbD_latchEvent (f : EventFlag) (u : EventUnit) (k : Nat) :
    (latchEvent f u).latched.getLsbD k = true ↔ u.latched.getLsbD k = true ∨ k = flagNumber f := by
  simp only [latchEvent_latched, BitVec.getLsbD_or, Bool.or_eq_true, getLsbD_flagMask]

/-- The OR of w reported flags from lo on (R172). -/
theorem groupOr_iff (u : EventUnit) (lo w : Nat) :
    groupOr u lo w = true ↔ ∃ k, lo ≤ k ∧ k < lo + w ∧ u.latched.getLsbD k = true ∧ u.enabled.getLsbD k = true := by
  unfold groupOr reportedFlags
  simp only [bne_iff_ne, ne_eq]
  constructor
  · intro h
    by_contra hc
    apply h
    apply BitVec.eq_of_getLsbD_eq
    intro i hi
    simp only [BitVec.getLsbD_extractLsb', BitVec.getLsbD_and]
    by_contra hb
    simp at hb
    exact hc ⟨lo + i, by omega, by omega, hb.2.1, hb.2.2⟩
  · rintro ⟨k, hk, hk2, h1, h2⟩ h
    have := congrArg (fun v => v.getLsbD (k - lo)) h
    have e : lo + (k - lo) = k := by omega
    simp [e, h1, h2] at this
    omega

/-- The summary is the OR of all flags both latched and enabled (R194). -/
theorem summary_iff (u : EventUnit) :
    summary u = true ↔ ∃ k, k < 45 ∧ u.latched.getLsbD k = true ∧ u.enabled.getLsbD k = true := by
  have h : summary u = groupOr u 0 45 := by
    simp [summary, groupOr]
  rw [h, groupOr_iff]
  simp

/-- Pending alert cells have no part in the summary. -/
@[simp] theorem summary_settleAlerts (before : Bool) (u : EventUnit) : summary (settleAlerts before u) = summary u := by
  unfold settleAlerts
  split
  · rfl
  · split <;> rfl

theorem summary_latchEvent (f : EventFlag) (u : EventUnit) (h : summary u = true) : summary (latchEvent f u) = true := by
  obtain ⟨k, hk, hl, he⟩ := (summary_iff u).1 h
  unfold latchEvent
  rw [summary_settleAlerts]
  exact (summary_iff _).2 ⟨k, hk, by simp [hl], he⟩

theorem AlertsFollow.refl (u : EventUnit) : AlertsFollow u u :=
  ⟨rfl, rfl, rfl, fun h h' => by simp [h] at h', fun _ => ⟨rfl, rfl⟩⟩

/-- A latch under any summary (R194, R195). -/
theorem AlertsFollow.latch (f : EventFlag) (u : EventUnit) : AlertsFollow u (latchEvent f u) := by
  have up := summary_latchEvent f u
  unfold latchEvent at up
  rw [summary_settleAlerts] at up
  unfold AlertsFollow latchEvent
  rw [summary_settleAlerts]
  generalize hv : ({ u with latched := u.latched ||| flagMask f } : EventUnit) = v at up ⊢
  subst hv
  cases hu : summary u <;> cases hw : summary { u with latched := u.latched ||| flagMask f } <;>
    simp_all [settleAlerts]

/-- Latches one after the other, none of which takes the summary from 1 to 0. -/
theorem AlertsFollow.trans {u v w : EventUnit} (h : AlertsFollow u v) (k : AlertsFollow v w)
    (up : summary u = true → summary v = true) (up' : summary v = true → summary w = true) : AlertsFollow u w := by
  obtain ⟨a, b, c, d, e⟩ := h
  obtain ⟨a', b', c', d', e'⟩ := k
  refine ⟨a'.trans a, b'.trans b, c'.trans c, fun hu hw => ?_, fun hw => ?_⟩
  · cases hv : summary v with
    | false => rw [← b, ← c, ← (e (hv.trans hu.symm)).1, ← (e (hv.trans hu.symm)).2]; exact d' hv hw
    | true => rw [← (d hu hv).1, ← (d hu hv).2]; exact e' (hw.trans hv.symm)
  · have hv : summary v = summary u := by
      cases hu : summary u with
      | true => exact up hu
      | false =>
        cases hv : summary v with
        | false => rfl
        | true => rw [hw, hu] at up'; exact (up' hv).symm
    exact ⟨(e' (hw.trans hv.symm)).1.trans (e hv).1, (e' (hw.trans hv.symm)).2.trans (e hv).2⟩

end Sys2Proof.Machine
end

