-- ==== Sys2Proof/Laws/Memory.lean ====
section
/-! SUPPORT. What the canonical tables read after a write, and that every operation on them keeps their form. -/

namespace Sys2Proof.Machine

open Sys2Proof

variable {α : Type} [DecidableEq α] {d : α} {size : Nat}

/-- Addresses strictly rising. -/
abbrev Rising (m : List (Nat × α)) : Prop := m.Pairwise fun p q => p.1 < q.1

omit [DecidableEq α] in
@[simp] theorem Memory.read_nil (d : α) (a : Nat) : Memory.read d [] a = d := rfl

theorem Memory.wf_nil (d : α) (size : Nat) : Memory.wf d size [] := by simp [Memory.wf]

omit [DecidableEq α] in
/-- An address below every listed one reads as the default. -/
theorem Memory.read_below {m : List (Nat × α)} {a : Nat} (h : ∀ p ∈ m, a < p.1) : Memory.read d m a = d := by
  induction m with
  | nil => rfl
  | cons p m ih =>
    obtain ⟨k, v⟩ := p
    have hk : a < k := h (k, v) (by simp)
    rw [Memory.read, if_neg (by omega)]
    exact ih fun q hq => h q (by simp [hq])

theorem Memory.read_write_same {m : List (Nat × α)} (h : Rising m) (a : Nat) (v : α) :
    Memory.read d (Memory.write d m a v) a = v := by
  induction m with
  | nil => by_cases hv : v = d <;> simp [Memory.write, Memory.read, hv]
  | cons p m ih =>
    obtain ⟨k, w⟩ := p
    obtain ⟨h1, h2⟩ := List.pairwise_cons.1 h
    unfold Memory.write
    split
    · rename_i hlt
      split
      · rename_i hv
        rw [hv]
        refine Memory.read_below fun q hq => ?_
        rcases List.mem_cons.1 hq with rfl | hq
        · exact hlt
        · exact Nat.lt_trans hlt (h1 q hq)
      · simp [Memory.read]
    · split
      · rename_i hak
        subst hak
        split
        · rename_i hv
          rw [hv]
          exact Memory.read_below h1
        · simp [Memory.read]
      · rename_i hne
        rw [Memory.read, if_neg (by omega)]
        exact ih h2

theorem Memory.read_write_other {m : List (Nat × α)} (a b : Nat) (v : α) (hab : a ≠ b) (h : Rising m) :
    Memory.read d (Memory.write d m a v) b = Memory.read d m b := by
  induction m with
  | nil => by_cases hv : v = d <;> simp [Memory.write, Memory.read, hv, hab]
  | cons p m ih =>
    obtain ⟨k, w⟩ := p
    obtain ⟨h1, h2⟩ := List.pairwise_cons.1 h
    unfold Memory.write
    split
    · split
      · rfl
      · simp [Memory.read, hab]
    · split
      · rename_i hak
        subst hak
        split <;> simp [Memory.read, hab]
      · simp only [Memory.read]
        split
        · rfl
        · exact ih h2

/-- An entry of a written table is the one written or was there before. -/
theorem Memory.mem_write {m : List (Nat × α)} {a : Nat} {v : α} {p : Nat × α} (h : p ∈ Memory.write d m a v) :
    (p = (a, v) ∧ v ≠ d) ∨ p ∈ m := by
  induction m with
  | nil =>
    unfold Memory.write at h
    split at h
    · simp at h
    · rename_i hv; simp at h; exact .inl ⟨h, hv⟩
  | cons q m ih =>
    obtain ⟨k, w⟩ := q
    unfold Memory.write at h
    split at h
    · split at h
      · exact .inr h
      · rename_i hv
        rcases List.mem_cons.1 h with h | h
        · exact .inl ⟨h, hv⟩
        · exact .inr h
    · split at h
      · split at h
        · exact .inr (List.mem_cons_of_mem _ h)
        · rename_i hv
          rcases List.mem_cons.1 h with h | h
          · exact .inl ⟨h, hv⟩
          · exact .inr (List.mem_cons_of_mem _ h)
      · rcases List.mem_cons.1 h with h | h
        · exact .inr (h ▸ List.mem_cons_self)
        · rcases ih h with h | h
          · exact .inl h
          · exact .inr (List.mem_cons_of_mem _ h)

theorem Memory.rising_write {m : List (Nat × α)} (h : Rising m) (a : Nat) (v : α) : Rising (Memory.write d m a v) := by
  induction m with
  | nil => unfold Memory.write; split <;> simp
  | cons p m ih =>
    obtain ⟨k, w⟩ := p
    obtain ⟨h1, h2⟩ := List.pairwise_cons.1 h
    unfold Memory.write
    split
    · rename_i hlt
      split
      · exact h
      · refine List.pairwise_cons.2 ⟨fun q hq => ?_, h⟩
        rcases List.mem_cons.1 hq with rfl | hq
        · exact hlt
        · exact Nat.lt_trans hlt (h1 q hq)
    · split
      · rename_i hak
        subst hak
        split
        · exact h2
        · exact List.pairwise_cons.2 ⟨h1, h2⟩
      · refine List.pairwise_cons.2 ⟨fun q hq => ?_, ih h2⟩
        rcases Memory.mem_write hq with ⟨rfl, _⟩ | hq
        · show k < a
          omega
        · exact h1 q hq

/-- A write keeps the canonical form. -/
theorem Memory.wf_write {m : List (Nat × α)} (h : Memory.wf d size m) (a : Nat) (v : α) (ha : a < size) :
    Memory.wf d size (Memory.write d m a v) := by
  obtain ⟨h1, h2, h3⟩ := h
  refine ⟨Memory.rising_write h1 a v, fun p hp => ?_, fun p hp => ?_⟩
  · rcases Memory.mem_write hp with ⟨rfl, _⟩ | hp
    · exact ha
    · exact h2 p hp
  · rcases Memory.mem_write hp with ⟨rfl, hv⟩ | hp
    · exact hv
    · exact h3 p hp

/-! ## The Route Table -/

/-- Making every entry invalid keeps the canonical form (R107). -/
theorem clearRoutes_wf {m : List (Nat × RouteEntry)} (h : Memory.wf RouteEntry.initial size m) :
    Memory.wf RouteEntry.initial size (clearRoutes m) := by
  obtain ⟨h1, h2, _⟩ := h
  refine ⟨?_, fun p hp => ?_, fun p hp => ?_⟩
  · exact List.Pairwise.filter _ (List.pairwise_map.2 h1)
  · simp only [clearRoutes, List.mem_filter, List.mem_map] at hp
    obtain ⟨⟨q, hq, rfl⟩, _⟩ := hp
    exact h2 q hq
  · simp only [clearRoutes, List.mem_filter, decide_eq_true_eq] at hp
    exact hp.2

/-- After ROUTE_CLEAR every index reads as before with its valid field clear (R107). -/
theorem read_clearRoutes {m : List (Nat × RouteEntry)} (h : Rising m) (i : Nat) :
    Memory.read RouteEntry.initial (clearRoutes m) i = (Memory.read RouteEntry.initial m i).invalidate := by
  induction m with
  | nil => rfl
  | cons p m ih =>
    obtain ⟨k, e⟩ := p
    obtain ⟨h1, h2⟩ := List.pairwise_cons.1 h
    have ih := ih h2
    have hc : clearRoutes ((k, e) :: m) =
        if e.invalidate ≠ RouteEntry.initial then (k, e.invalidate) :: clearRoutes m else clearRoutes m := by
      by_cases he : e.invalidate = RouteEntry.initial <;> simp [clearRoutes, he]
    rw [hc]
    by_cases hk : k = i
    · subst hk
      have hb : Memory.read RouteEntry.initial (clearRoutes m) k = RouteEntry.initial := by
        refine Memory.read_below fun q hq => ?_
        simp only [clearRoutes, List.mem_filter, List.mem_map] at hq
        obtain ⟨⟨r, hr, rfl⟩, _⟩ := hq
        exact h1 r hr
      by_cases he : e.invalidate = RouteEntry.initial
      · simp [he, Memory.read, hb]
      · simp [he, Memory.read]
    · split
      · simp [Memory.read, hk, ih]
      · simp [Memory.read, hk, ih]

/-- What an index of the Route Table reads after an entry has been written. -/
theorem State.route_setRoute (s : State) (i j : Nat) (e : RouteEntry) (h : Rising s.routes) :
    (s.setRoute i e).route j = if i = j then e else s.route j := by
  unfold State.route State.setRoute
  split
  · rename_i hij; subst hij; exact Memory.read_write_same h i e
  · rename_i hij; exact Memory.read_write_other i j e hij h

end Sys2Proof.Machine
end

