-- ==== Sys2Proof/Laws/PacketMemory.lean ====
section
/-! SUPPORT. What an allocation chooses, what a grant depends on, the buffers of an egress after an enqueue, and what
frees lead to. -/

namespace Sys2Proof.Machine

open Sys2Proof

theorem mem_allBanks (b : Fin 8) : b ∈ allBanks := by revert b; decide

/-- What an allocation chooses (R120): a free buffer of a bank that lends to the owner, no lower bank of the owner having a
free one, and no lower buffer of that bank being free. -/
theorem State.allocate_spec {s : State} {o : Owner} {id : BufferId} (h : s.allocate o = some id) :
    s.lends o id.bank = true ∧ id ∉ s.heldBuffers ∧ id.index < 128 ∧
    (∀ b : Fin 8, b < id.bank → s.lends o b = true → s.bankFree b = 0) ∧
    (∀ i, i < id.index → (⟨id.bank, i⟩ : BufferId) ∈ s.heldBuffers) := by
  unfold State.allocate at h
  split at h
  · next b hb =>
    have hp := List.find?_some hb
    simp only [Bool.and_eq_true, decide_eq_true_eq] at hp
    unfold State.lowestFree at h
    have hmem := List.mem_of_find?_eq_some h
    have hq := List.find?_some h
    rw [List.mem_map] at hmem
    obtain ⟨i, hi, rfl⟩ := hmem
    simp [Config.bankBuffers] at hi
    refine ⟨hp.1, by simpa using hq, hi, ?_, ?_⟩
    · intro c hc hl
      obtain ⟨_, as, bs, hab, hn⟩ := List.find?_eq_some_iff_append.1 hb
      have : c ∈ as := by
        have hca : c ∈ allBanks := mem_allBanks c
        have hsorted : allBanks.Pairwise (· < ·) := by decide
        rw [hab] at hca hsorted
        rw [List.mem_append, List.mem_cons] at hca
        rcases hca with h | h | h
        · exact h
        · subst h; exact absurd hc (lt_irrefl _)
        · rw [List.pairwise_append] at hsorted
          have := List.rel_of_pairwise_cons hsorted.2.1 h
          exact absurd (lt_trans hc this) (lt_irrefl _)
      have := hn c this
      simp [hl] at this; exact this
    · intro j hj
      obtain ⟨_, as, bs, hab, hn⟩ := List.find?_eq_some_iff_append.1 h
      simp only at hj
      have : (⟨b, j⟩ : BufferId) ∈ as := by
        have hca : (⟨b, j⟩ : BufferId) ∈ (List.range Config.bankBuffers).map fun i => (⟨b, i⟩ : BufferId) := by
          rw [List.mem_map]; exact ⟨j, by simp [Config.bankBuffers]; omega, rfl⟩
        have hsorted : ((List.range Config.bankBuffers).map fun i => (⟨b, i⟩ : BufferId)).Pairwise (fun p q => p.index < q.index) := by
          rw [List.pairwise_map]; exact List.pairwise_lt_range
        rw [hab] at hca hsorted
        rw [List.mem_append, List.mem_cons] at hca
        rcases hca with h | h | h
        · exact h
        · rw [BufferId.mk.injEq] at h; omega
        · rw [List.pairwise_append] at hsorted
          have := List.rel_of_pairwise_cons hsorted.2.1 h
          simp only at this; omega
      have := hn _ this
      simpa using this
  · simp at h

/-- A bank with a positive free count has a free buffer. -/
theorem State.lowestFree_isSome (s : State) (b : Fin 8) : 0 < s.bankFree b → (s.lowestFree b).isSome = true := by
  intro h
  rw [Option.isSome_iff_ne_none]
  intro hn
  unfold State.lowestFree at hn
  rw [List.find?_eq_none] at hn
  have hall : ∀ i, i < 128 → (⟨b, i⟩ : BufferId) ∈ s.heldBuffers := by
    intro i hi
    have := hn ⟨b, i⟩ (by rw [List.mem_map]; exact ⟨i, by simp [Config.bankBuffers, hi], rfl⟩)
    simpa using this
  have : 128 ≤ s.bankHeld b := by
    unfold State.bankHeld
    rw [List.countP_eq_length_filter]
    have hsub : ((List.range 128).map fun i => (⟨b, i⟩ : BufferId)) ⊆ s.heldBuffers.filter fun id => id.bank == b := by
      intro x hx
      rw [List.mem_map] at hx; obtain ⟨i, hi, rfl⟩ := hx
      rw [List.mem_filter]; exact ⟨hall i (by simpa using hi), by simp⟩
    have hnd : ((List.range 128).map fun i => (⟨b, i⟩ : BufferId)).Nodup := by
      rw [List.Nodup, List.pairwise_map]; exact List.nodup_range.imp (fun h => by simp [h])
    have := (List.subperm_of_subset hnd hsub).length_le
    simpa using this
  simp [State.bankFree, Config.bankBuffers] at h; omega

/-- An enqueued buffer joins the egress's buffers. -/
theorem Egress.buffers_enqueue (x : Egress) (b : Buffer) : (x.enqueue b).buffers.Perm (b.id :: x.buffers) := by
  have : ∀ n : SlotId, (x.enqueue b).queues[n] = if b.slot = n then x.queues[n] ++ [b] else x.queues[n] := by
    intro n
    simp only [Egress.enqueue, Fin.getElem_fin, Vector.getElem_set]
    by_cases h : b.slot = n
    · subst h; simp
    · have : ¬ (b.slot : Nat) = n := fun e => h (Fin.ext e)
      simp [h, this]
  simp only [Egress.buffers, allSlots, List.flatMap_cons, List.flatMap_nil, this]
  generalize b.slot = m
  have h6 : m = 0 ∨ m = 1 ∨ m = 2 ∨ m = 3 ∨ m = 4 ∨ m = 5 := by revert m; decide
  rcases h6 with h | h | h | h | h | h <;> subst h <;> simp <;> 
    (rw [List.perm_iff_count]; intro a; simp [List.count_cons, List.count_append]; omega)

/-- An allocation depends on the Bank Map and on the held buffers of the banks that lend to the owner alone. -/
theorem State.allocate_congr (s t : State) (o : Owner) (hb : t.banks = s.banks)
    (hh : ∀ q : BufferId → Bool, (∀ id, q id = true → s.lends o id.bank = true) →
      t.heldBuffers.countP q = s.heldBuffers.countP q) :
    t.poolFree o = s.poolFree o ∧ t.allocate o = s.allocate o := by
  have hl : t.lends o = s.lends o := by funext b; simp [State.lends, hb]
  have hfree : ∀ b, s.lends o b = true → t.bankFree b = s.bankFree b := by
    intro b h
    have : t.bankHeld b = s.bankHeld b := hh _ (by intro id hid; rw [beq_iff_eq] at hid; rw [hid]; exact h)
    simp [State.bankFree, this]
  refine ⟨?_, ?_⟩
  · unfold State.poolFree; rw [hl]
    congr 1; apply List.map_congr_left; intro b h; rw [List.mem_filter] at h; exact hfree b h.2
  · unfold State.allocate; rw [hl]
    have hfind : (allBanks.find? fun b => s.lends o b && decide (0 < t.bankFree b)) =
        (allBanks.find? fun b => s.lends o b && decide (0 < s.bankFree b)) := by
      congr 1; funext b
      cases h : s.lends o b
      · rfl
      · rw [hfree b h]
    rw [hfind]
    split
    · next b hb =>
      have hp := List.find?_some hb
      simp only [Bool.and_eq_true] at hp
      unfold State.lowestFree
      rw [List.find?_map, List.find?_map]
      congr 1
      congr 1; funext i
      simp only [Function.comp]
      have hc : t.heldBuffers.count ⟨b, i⟩ = s.heldBuffers.count ⟨b, i⟩ :=
        hh _ (by intro id hid; rw [beq_iff_eq] at hid; rw [hid]; exact hp.1)
      have e1 : (⟨b, i⟩ ∈ t.heldBuffers) ↔ (⟨b, i⟩ ∈ s.heldBuffers) := by
        rw [← List.count_pos_iff, ← List.count_pos_iff, hc]
      simp [e1]
    · rfl

/-- A grant depends on the reserve and on what an allocation depends on. -/
theorem State.grant_congr (s t : State) (e : Side) (cls) (hb : t.banks = s.banks)
    (hr : (t.egress e).reserve = (s.egress e).reserve)
    (hh : ∀ q : BufferId → Bool, (∀ id, q id = true → s.lends (egressOwner e) id.bank = true) →
      t.heldBuffers.countP q = s.heldBuffers.countP q) : t.grant e cls = s.grant e cls := by
  obtain ⟨hpf, hal⟩ := State.allocate_congr s t (egressOwner e) hb hh
  simp [State.grant, hpf, hr, hal]

/-! ## What frees lead to (R123, R126, R189) -/

/-- The drain tests of the banks of freed buffers (R126). -/
theorem State.drainTests_banks (s : State) (l : List BufferId) (b : Fin 8) :
   let t := l.foldl (fun t id => t.drainTest id.bank) s
   (s.banks[b].state = .active → t.banks[b] = s.banks[b]) ∧
   ∀ o, s.banks[b].state = .draining o →
      ((∃ id ∈ l, id.bank = b) → s.bankHeld b = 0 → t.banks[b] = ⟨o, .active⟩) ∧
      (((∀ id ∈ l, id.bank ≠ b) ∨ s.bankHeld b ≠ 0) → t.banks[b] = s.banks[b]) := by
  induction l generalizing s with
  | nil => simp
  | cons a l ih =>
    intro t
    have ht : t = l.foldl (fun t id => t.drainTest id.bank) (s.drainTest a.bank) := rfl
    rw [ht]; clear ht t
    obtain ⟨i1, i2⟩ := ih (s.drainTest a.bank)
    have hh : (s.drainTest a.bank).bankHeld b = s.bankHeld b := by
      unfold State.drainTest; split
      · rfl
      · split <;> rfl
    have other : a.bank ≠ b → (s.drainTest a.bank).banks[b] = s.banks[b] := by
      intro h
      unfold State.drainTest; split
      · rfl
      · split
        · have : (a.bank : Nat) ≠ b := fun e => h (Fin.ext e)
          simp [this]
        · rfl
    by_cases e : a.bank = b
    · subst e
      refine ⟨fun h => ?_, fun o h => ?_⟩
      · have : s.drainTest a.bank = s := by unfold State.drainTest; rw [h]
        rw [this] at i1 ⊢; exact i1 h
      · by_cases h0 : s.bankHeld a.bank = 0
        · have : (s.drainTest a.bank).banks[a.bank] = ⟨o, .active⟩ := by
            unfold State.drainTest; rw [h]; simp [h0]
          rw [this] at i1
          refine ⟨fun _ _ => i1 rfl, ?_⟩
          rintro (h | h)
          · exact absurd rfl (h a (by simp))
          · exact absurd h0 h
        · have : s.drainTest a.bank = s := by unfold State.drainTest; rw [h]; simp [h0]
          rw [this] at i2 ⊢
          exact ⟨fun _ h => absurd h h0, fun _ => (i2 o h).2 (.inr h0)⟩
    · have o1 := other e
      rw [o1, hh] at i2; rw [o1] at i1
      refine ⟨i1, fun o h => ⟨?_, ?_⟩⟩
      · rintro ⟨id, hi, hb⟩ h0
        rcases List.mem_cons.1 hi with rfl | hi
        · exact absurd hb e
        · exact (i2 o h).1 ⟨id, hi, hb⟩ h0
      · rintro (hx | hx)
        · exact (i2 o h).2 (.inl fun id hi => hx id (by simp [hi]))
        · exact (i2 o h).2 (.inr hx)

/-- Everything that frees lead to: drain tests, and the captures that resume (R126, R189). -/
theorem State.afterFree_spec (s : State) (l : List BufferId) : let t := s.afterFree l
   t.banks = (l.foldl (fun t id => t.drainTest id.bank) s).banks ∧
   (∀ b, t.bankHeld b = s.bankHeld b) ∧
   (∀ c, t.capture c =
          if (s.capture c).state = .suspended ∧ 1 ≤ t.poolFree .capture then { s.capture c with state := .active }
          else s.capture c) := by
  intro t
  have hb : ∀ u : State, ∀ b, u.resumeCaptures.bankHeld b = u.bankHeld b := by
    intro u b
    have hr : ∀ c : CaptureContext, c.resume.buffers = c.buffers := by intro c; unfold CaptureContext.resume; split <;> rfl
    unfold State.resumeCaptures; split
    · simp only [State.bankHeld, State.heldBuffers, hr]
    · rfl
  have hbk : ∀ u : State, u.resumeCaptures.banks = u.banks := by
    intro u; unfold State.resumeCaptures; split <;> rfl
  have hp : ∀ u : State, u.resumeCaptures.poolFree .capture = u.poolFree .capture := by
    intro u
    have : u.resumeCaptures.lends .capture = u.lends .capture := by funext b; simp only [State.lends, hbk]
    unfold State.poolFree
    rw [this]
    congr 2
    funext b
    simp only [State.bankFree, hb]
  set d := (l.foldl (fun t id => t.drainTest id.bank) s) with hd
  have td : t = d.resumeCaptures := rfl
  obtain ⟨k, df⟩ := State.drainTests_frame s l
  rw [← hd] at df
  refine ⟨?_, ?_, ?_⟩
  · rw [td, hbk]
  · intro b; rw [td, hb, df]; rfl
  · intro c
    have hc : d.capture c = s.capture c := by rw [df]; cases c <;> rfl
    rw [← hc, td, hp]
    unfold State.resumeCaptures CaptureContext.resume
    by_cases h1 : 1 ≤ d.poolFree .capture
    · simp only [h1, if_true, and_true]; cases c <;> rfl
    · simp only [h1, and_false, if_false]

end Sys2Proof.Machine
end

