-- ==== Sys2Proof/Laws/Payload.lean ====
section
/-! SUPPORT. Numbers written most significant byte first read back from their bytes, and the bytes of a value
(00_scope.md 4.6, R169). -/

namespace Sys2Proof

theorem join16 (x : BitVec 16) : x.extractLsb' 8 8 ++ x.extractLsb' 0 8 = x := by
  ext i hi
  have h : x[i] = x.getLsbD i := by simp [BitVec.getLsbD_eq_getElem, hi]
  rw [h]
  simp only [BitVec.getElem_append, BitVec.getElem_extractLsb']
  split <;> congr 1 <;> omega

theorem join24 (x : BitVec 24) : x.extractLsb' 16 8 ++ (x.extractLsb' 8 8 ++ x.extractLsb' 0 8) = x := by
  ext i hi
  have h : x[i] = x.getLsbD i := by simp [BitVec.getLsbD_eq_getElem, hi]
  rw [h]
  simp only [BitVec.getElem_append, BitVec.getElem_extractLsb']
  split
  · split <;> congr 1 <;> omega
  · congr 1; omega

theorem join32 (x : BitVec 32) : (x.extractLsb' 24 8 ++ x.extractLsb' 16 8) ++ (x.extractLsb' 8 8 ++ x.extractLsb' 0 8) = x := by
  ext i hi
  have h : x[i] = x.getLsbD i := by simp [BitVec.getLsbD_eq_getElem, hi]
  rw [h]
  simp only [BitVec.getElem_append, BitVec.getElem_extractLsb']
  split
  · split <;> congr 1 <;> omega
  · split <;> congr 1 <;> omega

theorem join48 (x : BitVec 48) : (x.extractLsb' 40 8 ++ (x.extractLsb' 32 8 ++ x.extractLsb' 24 8)) ++ (x.extractLsb' 16 8 ++ (x.extractLsb' 8 8 ++ x.extractLsb' 0 8)) = x := by
  ext i hi
  have h : x[i] = x.getLsbD i := by simp [BitVec.getLsbD_eq_getElem, hi]
  rw [h]
  simp only [BitVec.getElem_append, BitVec.getElem_extractLsb']
  split
  · split <;> (try split) <;> congr 1 <;> omega
  · split <;> (try split) <;> congr 1 <;> omega

/-- The eight keys of ROUTE_REMOVE one by one. -/
theorem keys8 (ks : Vector RouteKey 8) : ks = #v[ks[0], ks[1], ks[2], ks[3], ks[4], ks[5], ks[6], ks[7]] := by
  ext i hi
  have : i = 0 ∨ i = 1 ∨ i = 2 ∨ i = 3 ∨ i = 4 ∨ i = 5 ∨ i = 6 ∨ i = 7 := by omega
  rcases this with h | h | h | h | h | h | h | h <;> subst h <;> rfl

/-- A payload has exactly its length (R170, R183). -/
theorem length_padTo (n : Nat) (bs : List Byte) : (padTo n bs).length = n := by simp [padTo]

/-! ## Values in their bytes -/

open Machine

theorem bytes16_eq (v : BitVec 16) : bytes16 v = beBytes 2 v.toNat := by
  simp only [bytes16, beBytes]
  congr 1
  · apply BitVec.eq_of_toNat_eq; simp [Nat.shiftRight_eq_div_pow]
  congr 1
  · apply BitVec.eq_of_toNat_eq; simp [Nat.shiftRight_eq_div_pow]

theorem bytes32_eq (v : BitVec 32) : bytes32 v = beBytes 4 v.toNat := by
  simp only [bytes32, beBytes]
  congr 1
  · apply BitVec.eq_of_toNat_eq; simp [Nat.shiftRight_eq_div_pow]
  congr 1
  · apply BitVec.eq_of_toNat_eq; simp [Nat.shiftRight_eq_div_pow]
  congr 1
  · apply BitVec.eq_of_toNat_eq; simp [Nat.shiftRight_eq_div_pow]
  congr 1
  · apply BitVec.eq_of_toNat_eq; simp [Nat.shiftRight_eq_div_pow]

theorem bytes48_eq (v : BitVec 48) : bytes48 v = beBytes 6 v.toNat := by
  simp only [bytes48, beBytes]
  congr 1
  · apply BitVec.eq_of_toNat_eq; simp [Nat.shiftRight_eq_div_pow]
  congr 1
  · apply BitVec.eq_of_toNat_eq; simp [Nat.shiftRight_eq_div_pow]
  congr 1
  · apply BitVec.eq_of_toNat_eq; simp [Nat.shiftRight_eq_div_pow]
  congr 1
  · apply BitVec.eq_of_toNat_eq; simp [Nat.shiftRight_eq_div_pow]
  congr 1
  · apply BitVec.eq_of_toNat_eq; simp [Nat.shiftRight_eq_div_pow]
  congr 1
  · apply BitVec.eq_of_toNat_eq; simp [Nat.shiftRight_eq_div_pow]

end Sys2Proof
end

