-- ==== Sys2Proof/Laws/Requests.lean ====
section
/-! SUPPORT. What a request does to the parts of the state that no request owns, what a request served at once answers,
what every request row does, which request the Agent takes, and what becomes of a request at its arrival. -/

namespace Sys2Proof.Machine

open Sys2Proof

/-! ## What no request changes -/

/-- From s to t the power phase, the Time Base, the inputs, the Agent and the queue of waiting commands stay. -/
abbrev KeepsManagement (s t : State) : Prop :=
  t.power = s.power ∧ t.time = s.time ∧ t.rf0 = s.rf0 ∧ t.rf1 = s.rf1 ∧ t.agent = s.agent ∧ t.pending = s.pending

theorem KeepsManagement.trans {s t u : State} (h : KeepsManagement s t) (k : KeepsManagement t u) :
    KeepsManagement s u := by
  obtain ⟨a, b, c, d, e, f⟩ := h
  obtain ⟨a', b', c', d', e', f'⟩ := k
  exact ⟨a'.trans a, b'.trans b, c'.trans c, d'.trans d, e'.trans e, f'.trans f⟩

theorem keeps_program (p : SlotSetParams) (ns : List SlotId) (s : State) :
    KeepsManagement s (ns.foldl (State.program p) s) := by
  induction ns generalizing s with
  | nil => simp [KeepsManagement]
  | cons n ns ih => exact KeepsManagement.trans (by simp [KeepsManagement, State.program]) (ih _)

theorem keeps_slotSet (s : State) (p : SlotSetParams) : KeepsManagement s (s.slotSet p).state := by
  unfold State.slotSet
  split
  · simp [KeepsManagement, State.refuse]
  · split
    · simp [KeepsManagement, State.refuse]
    · split
      · simp [KeepsManagement, State.refuse]
      · exact keeps_program p _ s

theorem keeps_enableSlot (s : State) (n : SlotId) : KeepsManagement s (s.enableSlot n).2 := by
  unfold State.enableSlot; split
  · simp [KeepsManagement]
  · split
    · simp [KeepsManagement]
    · split <;> simp [KeepsManagement]

theorem keeps_disableSlot (s : State) (n : SlotId) : KeepsManagement s (s.disableSlot n).2 := by
  unfold State.disableSlot; split <;> simp [KeepsManagement]

theorem keeps_retuneSlot (s : State) (n : SlotId) : KeepsManagement s (s.retuneSlot n).2 := by
  unfold State.retuneSlot; split
  · split <;> simp [KeepsManagement]
  · simp [KeepsManagement]

theorem keeps_controlSlots (act : State → SlotId → Status × State) (h : ∀ s n, KeepsManagement s (act s n).2)
    (ns : List SlotId) (acted : Byte) (s : State) : KeepsManagement s (s.controlSlots act acted ns).state := by
  induction ns generalizing s acted with
  | nil => simp [KeepsManagement, State.controlSlots, State.accept]
  | cons n ns ih =>
    unfold State.controlSlots
    split
    · next t ht => exact KeepsManagement.trans (by have := h s n; rw [ht] at this; exact this) (ih _ _)
    · simp [KeepsManagement, State.refuse]

theorem keeps_slotControl (s : State) (mask action : Byte) : KeepsManagement s (s.slotControl mask action).state := by
  unfold State.slotControl
  split
  · simp [KeepsManagement, State.refuse]
  · split
    · exact keeps_controlSlots _ keeps_enableSlot _ _ _
    · split
      · exact keeps_controlSlots _ keeps_disableSlot _ _ _
      · split
        · exact keeps_controlSlots _ keeps_retuneSlot _ _ _
        · simp [KeepsManagement, State.refuse]

theorem keeps_placeRoute (s : State) (own : Option Nat) (e : RouteEntry) :
    KeepsManagement s (s.placeRoute own e).1 := by
  unfold State.placeRoute; split
  · simp [KeepsManagement]
  · split
    · simp [KeepsManagement]
    · split
      · simp [KeepsManagement]
      · split <;> simp [KeepsManagement]

theorem keeps_addRoute (s : State) (d : RouteDesc) : KeepsManagement s (s.addRoute d).1 := by
  unfold State.addRoute; split
  · simp [KeepsManagement]
  · split
    · split
      · exact keeps_placeRoute _ _ _
      · simp [KeepsManagement]
    · exact keeps_placeRoute _ _ _

theorem keeps_addRoutes (ds : List RouteDesc) (s : State) : KeepsManagement s (s.addRoutes ds).1 := by
  induction ds generalizing s with
  | nil => simp [KeepsManagement, State.addRoutes]
  | cons d ds ih => exact KeepsManagement.trans (keeps_addRoute s d) (ih _)

theorem keeps_removeRoute (s : State) (k : RouteKey) : KeepsManagement s (s.removeRoute k).1 := by
  unfold State.removeRoute; split <;> simp [KeepsManagement]

theorem keeps_removeRoutes (ks : List RouteKey) (s : State) : KeepsManagement s (s.removeRoutes ks).1 := by
  induction ks generalizing s with
  | nil => simp [KeepsManagement, State.removeRoutes]
  | cons d ds ih => exact KeepsManagement.trans (keeps_removeRoute s d) (ih _)

theorem keeps_assignBank (s : State) (b : Fin 8) (o : Owner) : KeepsManagement s (s.assignBank b o).2 := by
  unfold State.assignBank; split
  · simp [KeepsManagement]
  · split
    · simp [KeepsManagement]
    · split <;> simp [KeepsManagement, State.setBank]

theorem keeps_startEgress (s : State) (e : Side) : KeepsManagement s (s.startEgress e).2 := by
  unfold State.startEgress; split
  · simp [KeepsManagement]
  · simp [KeepsManagement]
  · split <;> simp [KeepsManagement]

theorem keeps_stopEgress (s : State) (e : Side) : KeepsManagement s (s.stopEgress e) := by
  unfold State.stopEgress; split <;> simp [KeepsManagement]

theorem keeps_drainAll (s : State) : KeepsManagement s s.drainAll := by
  simp [KeepsManagement, State.drainAll, allBanks]

theorem keeps_datapathReset (s : State) : KeepsManagement s s.datapathReset := by
  refine KeepsManagement.trans (t := s.quiet) (by simp [KeepsManagement, State.quiet]) ?_
  refine KeepsManagement.trans (keeps_stopEgress _ .a) ?_
  refine KeepsManagement.trans (keeps_stopEgress _ .b) ?_
  refine KeepsManagement.trans (keeps_drainAll _) ?_
  exact KeepsManagement.trans (t := ((s.quiet.stopEgress .a).stopEgress .b).drainAll.zeroCounters)
    (by simp [KeepsManagement, State.zeroCounters]) (by simp [KeepsManagement, State.datapathReset, State.clearRecords])

/-- What a request leaves alone, whatever it is. -/
theorem keeps_applyRequest (s : State) (l : Side) (r : Request) : KeepsManagement s (s.applyRequest l r).state := by
  cases r with
  | describe => simp [KeepsManagement, State.applyRequest, State.describe, State.accept]
  | reset => exact keeps_datapathReset s
  | status clear => simp [KeepsManagement, State.applyRequest, State.status, State.accept]
  | alertConfig enable a b =>
    show KeepsManagement s (s.alertConfig enable a b).state
    unfold State.alertConfig; split <;> simp [KeepsManagement, State.accept, State.refuse]
  | statsSnapshot clear =>
    show KeepsManagement s (s.statsSnapshot clear).state
    unfold State.statsSnapshot
    split
    · simp [KeepsManagement, State.refuse]
    · split <;> simp [KeepsManagement, State.accept, State.takeSnapshot, State.zeroCounters]
  | statsRead page =>
    show KeepsManagement s (s.statsRead page).state
    unfold State.statsRead; split
    · simp [KeepsManagement, State.refuse]
    · split <;> simp [KeepsManagement, State.accept, State.refuse]
  | frontRead => simp [KeepsManagement, State.applyRequest, State.frontRead, State.accept]
  | auxSet m0 m1 p =>
    show KeepsManagement s (s.auxSet m0 m1 p).state
    unfold State.auxSet; split <;> simp [KeepsManagement, State.accept, State.refuse]
  | auxWrite m v0 v1 =>
    show KeepsManagement s (s.auxWrite m v0 v1).state
    unfold State.auxWrite; split <;> simp [KeepsManagement, State.accept, State.refuse]
  | auxRead => simp [KeepsManagement, State.applyRequest, State.auxRead, State.accept]
  | slotSet p => exact keeps_slotSet s p
  | slotControl mask action => exact keeps_slotControl s mask action
  | slotRead slot page =>
    show KeepsManagement s (s.slotRead slot page).state
    unfold State.slotRead; split
    · simp [KeepsManagement, State.refuse]
    · split <;> simp [KeepsManagement, State.accept, State.refuse]
  | routeAdd count d0 d1 d2 =>
    show KeepsManagement s (s.routeAdd count d0 d1 d2).state
    unfold State.routeAdd; split
    · exact keeps_addRoutes _ s
    · simp [KeepsManagement, State.refuse]
  | routeRemove count keys =>
    show KeepsManagement s (s.routeRemove count keys).state
    unfold State.routeRemove; split
    · exact keeps_removeRoutes _ s
    · simp [KeepsManagement, State.refuse]
  | routeClear => simp [KeepsManagement, State.applyRequest, State.routeClear, State.accept]
  | routeRead start => simp [KeepsManagement, State.applyRequest, State.routeRead, State.accept]
  | bankAssign bank owner =>
    show KeepsManagement s (s.bankAssign bank owner).state
    unfold State.bankAssign; split
    · simp [KeepsManagement, State.refuse, State.useFree]
    · split
      · simp [KeepsManagement, State.refuse]
      · exact keeps_assignBank s _ _
  | bankRead => simp [KeepsManagement, State.applyRequest, State.bankRead, State.accept]
  | egressSet p =>
    show KeepsManagement s (s.egressSet p).state
    unfold State.egressSet; split
    · simp [KeepsManagement, State.refuse]
    · split
      · simp [KeepsManagement, State.refuse]
      · split
        · simp [KeepsManagement, State.refuse]
        · split <;> simp [KeepsManagement, State.accept, State.refuse]
  | egressControl egress action =>
    show KeepsManagement s (s.egressControl egress action).state
    unfold State.egressControl; split
    · simp [KeepsManagement, State.refuse, State.useFree]
    · split
      · exact keeps_startEgress s _
      · split
        · exact keeps_stopEgress s _
        · simp [KeepsManagement, State.refuse]
  | egressRead egress page pid =>
    show KeepsManagement s (s.egressRead egress page pid).state
    unfold State.egressRead; split
    · simp [KeepsManagement, State.refuse]
    · split
      · split <;> simp [KeepsManagement, State.accept, State.useFree]
      · split
        · simp [KeepsManagement, State.accept]
        · split
          · simp [KeepsManagement, State.accept]
          · split <;> simp [KeepsManagement, State.accept, State.refuse]
  | captureStart context slot pid mode n =>
    show KeepsManagement s (s.captureStart l context slot pid mode n).state
    unfold State.captureStart; split
    · simp [KeepsManagement, State.refuse]
    · split
      · simp [KeepsManagement, State.refuse]
      · split
        · simp [KeepsManagement, State.refuse]
        · split <;> simp [KeepsManagement, State.accept, State.refuse]
  | captureCancel context =>
    show KeepsManagement s (s.captureCancel context).state
    unfold State.captureCancel; split
    · simp [KeepsManagement, State.refuse, State.useFree]
    · split <;> simp [KeepsManagement, State.accept, State.refuse]
  | unknown code => simp [KeepsManagement, State.applyRequest, State.refuse]

/-! ## A request served at once -/

/-- A request that the Agent takes at its arrival is served. -/
theorem State.request_of_serves {s : State} {l : Side} (h : s.Serves l) (tag code : Byte) (r : Request)
    (payload : List Byte) : s.request l tag code r payload = s.serve l tag code r := by
  obtain ⟨_, h2, h3, h4⟩ := h
  simp [State.request, Agent.ready, h2, h3, h4]

/-- A request row that the Agent takes at its arrival is served. -/
theorem State.requestRow_of_serves {s : State} {l : Side} (h : s.Serves l) (tag : Byte) (r : Request) :
    s.requestRow l tag r = s.serve l tag (requestCode r) r := by
  unfold State.requestRow
  rw [State.whenLocked_of_locked _ _ h.1, State.request_of_serves h]

/-- The one reply of a request served. -/
theorem State.serve_replied (s : State) (l : Side) (tag code : Byte) (r : Request) :
    Replied s (s.serve l tag code r) l tag code (s.applyRequest l r).status (s.applyRequest l r).data := by
  obtain ⟨_, _, _, _, h, _⟩ := keeps_applyRequest s l r
  simp only [Replied, State.serve, Agent.conclude, replyTo, h]

/-- The state after a request served is the state its owning rule leaves, but for the Agent. -/
theorem State.serve_state (s : State) (l : Side) (tag code : Byte) (r : Request) :
    s.serve l tag code r = { (s.applyRequest l r).state with agent := (s.serve l tag code r).agent } := rfl

/-- A request row served at once: a next state, with one reply of the owning rule's status and data, and the owning rule's
state but for the Agent. Every statement about a request served at once begins here. -/
theorem served {s : State} {l : Side} {tag : Byte} {r : Request} {c : Instr} (h : s.Serves l)
    (hc : exec c s = .next (s.requestRow l tag r)) :
    ∃ t, exec c s = .next t ∧
      Replied s t l tag (requestCode r) (s.applyRequest l r).status (s.applyRequest l r).data ∧
      SameButAgent (s.applyRequest l r).state t :=
  ⟨_, by rw [hc, State.requestRow_of_serves h], s.serve_replied l tag (requestCode r) r,
    s.serve_state l tag (requestCode r) r⟩

/-! ## Request rows -/

/-- A payload whose first byte is no listed code is read as an unlisted request (R170). -/
theorem requestOf_unlisted (tag code : Byte) (h : code ∉ knownCodes) :
    requestOf (padTo 60 [code, tag]) = .unknown code := by
  have e : byteAt (padTo 60 [code, tag]) 0 = code := rfl
  simp only [knownCodes, List.mem_cons, List.not_mem_nil, or_false, not_or] at h
  simp only [requestOf, e, h, if_false]

/-- Every request row has the effect of its request's arrival. -/
theorem exec_rowOf {c : Instr} {l : Side} {tag : Byte} {r : Request} (h : rowOf c = some (l, tag, r)) (s : State) :
    exec c s = .next (s.requestRow l tag r) := by
  cases c <;> simp only [rowOf, reduceCtorEq, Option.some.injEq, Prod.mk.injEq] at h <;>
    first
    | (obtain ⟨rfl, rfl, rfl⟩ := h; rfl)
    | (split at h
       · simp at h
       · next hc =>
         simp only [Option.some.injEq, Prod.mk.injEq] at h
         obtain ⟨rfl, rfl, rfl⟩ := h
         simp only [exec, execUnknownRequest, requestOf_unlisted _ _ hc, State.requestRow]
         rfl)

/-- The row of an unlisted code carries a code that is not listed. -/
theorem rowOf_unknown {c : Instr} {l : Side} {tag : Byte} {r : Request} (h : rowOf c = some (l, tag, r)) :
    ∀ code, r = .unknown code → code ∉ knownCodes := by
  cases c <;> simp only [rowOf, reduceCtorEq, Option.some.injEq, Prod.mk.injEq] at h <;>
    first
    | (obtain ⟨rfl, rfl, rfl⟩ := h; intro code hc; simp at hc)
    | (split at h
       · simp at h
       · next hc =>
         simp only [Option.some.injEq, Prod.mk.injEq] at h
         obtain ⟨rfl, rfl, rfl⟩ := h
         intro code e; simp at e; subst e; exact hc)

/-! ## The Agent's choice (R180) -/

theorem Agent.eligible_iff (g : Agent) (l : Side) :
    g.eligible l = true ↔ g.requests l ≠ [] ∧ (g.replies l).length < 8 := by
  simp [Agent.eligible, Config.replyDepth]

/-- An eligible link is chosen, of two the one not served last. -/
theorem Agent.choice_of_eligible (g : Agent) (m : Side) (h : g.eligible m = true)
    (h' : g.eligible (otherSide m) = true → g.lastServed = otherSide m) : g.choice = some m := by
  unfold Agent.choice
  cases hl : g.lastServed <;> cases m <;> simp_all [otherSide]

theorem Agent.choice_of_none (g : Agent) (h : g.eligible .a = false) (h' : g.eligible .b = false) :
    g.choice = none := by
  unfold Agent.choice
  cases hl : g.lastServed <;> simp_all [otherSide]

/-- An IDLE Agent takes the head request of the chosen link. -/
theorem State.agentPoll_takes {s : State} {m : Side} {p : List Byte} {more : List (List Byte)}
    (hi : s.agent.interval = none) (h : s.agent.eligible m = true)
    (h' : s.agent.eligible (otherSide m) = true → s.agent.lastServed = otherSide m)
    (hr : s.agent.requests m = p :: more) : s.agentPoll = s.taken m p more := by
  unfold State.agentPoll
  rw [hi]
  simp only [s.agent.choice_of_eligible m h h', State.serveHead, hr]
  rfl

/-- With no eligible link an IDLE Agent stays IDLE. -/
theorem State.agentPoll_idles {s : State} (hi : s.agent.interval = none) (h : s.agent.eligible .a = false)
    (h' : s.agent.eligible .b = false) : s.agentPoll = s := by
  unfold State.agentPoll
  rw [hi]
  simp only [s.agent.choice_of_none h h']

/-! ## A request at its arrival (R177, R179) -/

/-- The Agent of a locked part is ready for a link exactly when it serves it. -/
theorem Agent.ready_iff (s : State) (l : Side) (h : s.power = .locked) : s.agent.ready l = true ↔ s.Serves l := by
  simp [Agent.ready, State.Serves, h, and_assoc, Config.replyDepth]

/-- A payload that the Agent takes at its arrival. -/
theorem State.request_takes {s : State} {l : Side} (h : s.Serves l) (p : List Byte) :
    s.request l (byteAt p 1) (byteAt p 0) (requestOf p) p = s.taken l p [] := by
  rw [State.request_of_serves h]
  have e : ({ s with agent := s.agent.setRequests l [] } : State) = s := by
    obtain ⟨_, _, h3, _⟩ := h
    cases l <;> (simp only [Agent.setRequests]; simp only [Agent.requests] at h3; rw [← h3])
  unfold State.taken
  rw [e]; rfl

/-- A payload that the Agent does not take at its arrival. -/
theorem State.request_waits (s : State) (l : Side) (tag code : Byte) (r : Request) (p : List Byte)
    (h : ¬s.agent.ready l = true) : RequestWaits s (s.request l tag code r p) l p := by
  have hf : s.agent.ready l = false := by simpa using h
  unfold State.request; rw [hf]
  refine ⟨fun h => ?_, fun h => ?_⟩
  · rw [if_neg (by simp), if_pos h]
    refine ⟨fun hi => ?_, fun m q more hi he ho hm => ?_⟩
    · cases hh : s.agent.interval with
      | none =>
        obtain ⟨ha, hb⟩ := hi.resolve_left (by simp [hh])
        exact State.agentPoll_idles (by simpa using hh) (Bool.eq_false_iff.2 fun h => ha ((Agent.eligible_iff _ _).1 h))
          (Bool.eq_false_iff.2 fun h => hb ((Agent.eligible_iff _ _).1 h))
      | some q => unfold State.agentPoll; simp [hh]
    · exact State.agentPoll_takes (by simpa using hi) ((Agent.eligible_iff _ _).2 he)
        (fun h => by have := ho ((Agent.eligible_iff _ _).1 h); cases l <;> exact this) hm
  · rw [if_neg (by simp), if_neg (by simp [Config.requestDepth]; omega)]; rfl

end Sys2Proof.Machine
end

