-- ==== Sys2Proof/Laws/Pending.lean ====
section
/-! SUPPORT. No operation of the part touches the queue of the commands that wait. -/

namespace Sys2Proof.Machine

open Sys2Proof

theorem State.serve_pending (s:State) (l tag code r) : (s.serve l tag code r).pending = s.pending := by
  have := keeps_applyRequest s l r
  exact this.2.2.2.2.2

theorem State.serveHead_pending (s : State) (l) : (s.serveHead l).pending = s.pending := by
  unfold State.serveHead; split
  · rfl
  · rw [State.serve_pending]

theorem State.agentPoll_pending (s : State) : s.agentPoll.pending = s.pending := by
  unfold State.agentPoll; split
  · rfl
  · split
    · exact State.serveHead_pending _ _
    · rfl

theorem State.request_pending (s : State) (l tag code r p) : (s.request l tag code r p).pending = s.pending := by
  unfold State.request; split
  · exact State.serve_pending _ _ _ _ _
  · split
    · rw [State.agentPoll_pending]
    · simp [State.discardRequest]

theorem State.requestRow_pending (s : State) (l tag r) : (s.requestRow l tag r).pending = s.pending := by
  unfold State.requestRow
  rcases s.whenLocked_cases (s.request l tag (requestCode r) r (requestPayload tag r)) with h | h <;> rw [h]
  exact State.request_pending _ _ _ _ _ _

theorem State.whenDue_pending (s t : State) (d) (h : t.pending = s.pending) : (s.whenDue d t).pending = s.pending := by
  rcases s.whenDue_cases t d with e | e <;> rw [e]; exact h
theorem State.whenLocked_pending (s t : State) (h : t.pending = s.pending) : (s.whenLocked t).pending = s.pending := by
  rcases s.whenLocked_cases t with e | e <;> rw [e]; exact h

theorem State.failAttempt_pending (s : State) (n r) : (s.failAttempt n r).pending = s.pending := by simp [State.failAttempt]

theorem State.signalResult_pending (s : State) (n r) : (s.signalResult n r).pending = s.pending := by
  have hc : ∀ h, (s.countResult n h).pending = s.pending := by
    intro h; unfold State.countResult; simp only; split <;> simp [State.failAttempt_pending]
  unfold State.signalResult; cases r <;> simp only [hc]
  split
  · simp [State.failAttempt_pending]
  · split
    · rw [hc]
    · split <;> simp [hc]

theorem State.leaveTrack_pending (s : State) (n f) : (s.leaveTrack n f).pending = s.pending := by simp [State.leaveTrack]
theorem State.watch_pending (s : State) (n f) : (s.watch n f).pending = s.pending := by
  simp only [State.watch, State.superframeBoundary]; split <;> simp [State.leaveTrack_pending]
theorem State.trackResult_pending (s : State) (n r) : (s.trackResult n r).pending = s.pending := by
  unfold State.trackResult; cases r <;> simp only
  rotate_left
  · simp [State.watch_pending]
  · simp [State.watch_pending]
  split
  · split <;> simp [State.watch_pending, State.announce]
  · split
    · simp [State.confirmChange, State.leaveTrack_pending]
    · simp [State.watch_pending]

theorem State.frameEnd_pending (s : State) (n r f a p q o) : (s.frameEnd n r f a p q o).pending = s.pending := by
  unfold State.frameEnd; simp only; split <;> try simp [State.signalResult_pending]
  cases o <;> simp [State.trackFrame, State.rebuildFrame, State.trackResult_pending, State.ifTracking]
  split <;> simp [State.trackResult_pending]

theorem State.dueSlot_pending (td e f) (s : State) : (State.dueSlot td e f s).pending = s.pending := by
  induction f generalizing s with
  | zero => simp [State.dueSlot]
  | succ f ih =>
    unfold State.dueSlot; split
    · simp
    · split
      · rw [ih]; simp
      · simp

theorem State.captureSent_pending (s : State) (c) : (s.captureSent c).pending = s.pending := by
  unfold State.captureSent; simp only; split <;> (try split) <;> simp

theorem State.arbitrate_pending (s : State) (l) : (s.arbitrate l).pending = s.pending := by
  unfold State.arbitrate; split
  · simp [State.sendStream, State.send]
  · split
    · simp [State.sendAlert, State.send]
    · split
      · simp [State.sendReply, State.send, State.agentPoll_pending]
      · split
        · simp [State.sendCapture, State.send, State.captureSent_pending]
        · simp [State.sendIdle]

theorem State.copyAttempt_pending (s : State) (i n st p e) : (s.copyAttempt i n st p e).pending = s.pending := by
  unfold State.copyAttempt; split
  · split
    · split <;> simp [State.dropCopy, State.countEgress, State.setRoute]
    · simp [State.countEgress]
  · rfl

theorem State.deliver_pending (s : State) (n p f) : (s.deliver n p f).pending = s.pending := by
  have he : ∀ (s : State) c, (s.examine n p c).pending = s.pending := by
    intro s c; unfold State.examine; split <;> simp
  have hr : ∀ (s : State) x, (s.routePacket n x p).pending = s.pending := by
    intro s x; unfold State.routePacket; split
    · simp [State.countSlot]
    · split <;> simp [State.countSlot, State.copyAttempt_pending, State.hit, State.setRoute]
  simp [State.deliver, State.examineBoth, he, hr, State.countSlot]

theorem State.complete_pending (s : State) (n o p f) : (s.complete n o p f).pending = s.pending := by
  unfold State.complete; split <;> simp only [State.completeFecWait, State.completeTrack, State.completeHold, State.setSlot_pending]
  split
  · simp only [State.enterHold]; split <;> simp [State.expireHold]
  · split <;> simp [State.deliver_pending]

end Sys2Proof.Machine
end

