-- ==== Sys2Proof/Laws/Routing.lean ====
section
/-! SUPPORT. What routing and the capture contexts' examination of a delivery leave alone, the outcomes of a copy attempt,
what the checks of ROUTE_ADD test,
and the status of ROUTE_REMOVE. -/

namespace Sys2Proof.Machine

open Sys2Proof

theorem State.examine_frame (s : State) (n p c) : s.examine n p c = { s with capture0 := (s.examine n p c).capture0, capture1 := (s.examine n p c).capture1 } := by
  unfold State.examine; split
  · cases c <;> rfl
  · rfl
theorem State.examineBoth_frame (s : State) (n p c) : s.examineBoth n p c = { s with capture0 := (s.examineBoth n p c).capture0, capture1 := (s.examineBoth n p c).capture1 } := by
  unfold State.examineBoth
  generalize h : s.examine n p c = u
  rw [State.examine_frame u]
  have := State.examine_frame s n p c; rw [h] at this; rw [this]

/-- A copy attempt changes the Route Table, the egresses and the events alone. -/
theorem State.copyAttempt_frame (s : State) (i n st p e) : s.copyAttempt i n st p e = { s with routes := (s.copyAttempt i n st p e).routes, egressA := (s.copyAttempt i n st p e).egressA, egressB := (s.copyAttempt i n st p e).egressB, events := (s.copyAttempt i n st p e).events } := by
  unfold State.copyAttempt; split
  · split
    · split <;> cases e <;> rfl
    · cases e <;> rfl
  · rfl

theorem State.lookup_lt {s : State} {n p i} (h : s.lookup n p = some i) : i < 256 := by
  have := List.mem_of_find?_eq_some h
  simpa [routeIndices, Config.routeEntries] using this

/-- A copy attempt leaves the other egress (R111). -/
theorem State.copyAttempt_other (s : State) (i n st p) (e f : Side) (h : f ≠ e) : (s.copyAttempt i n st p e).egress f = s.egress f := by
  unfold State.copyAttempt; split
  · split
    · split <;> cases e <;> cases f <;> first | exact absurd rfl h | rfl
    · cases e <;> cases f <;> first | exact absurd rfl h | rfl
  · rfl

/-- A copy attempt changes the drops of its entry alone (R112). -/
theorem State.copyAttempt_routes (s : State) (i n st p e) (hw : Rising s.routes) : Rising (s.copyAttempt i n st p e).routes ∧ (∀ j, j ≠ i → (s.copyAttempt i n st p e).route j = s.route j) ∧
   ((s.copyAttempt i n st p e).route i).hits = (s.route i).hits ∧ (∃ d, (s.copyAttempt i n st p e).route i = { s.route i with drops := d }) := by
  unfold State.copyAttempt; split
  · split
    · split
      · refine ⟨by simpa using hw, ?_, ?_, ?_⟩
        · intro j _; cases e <;> rfl
        · cases e <;> rfl
        · exact ⟨(s.route i).drops, by cases e <;> rfl⟩
      · have hr : (s.dropCopy i e).routes = (s.setRoute i { s.route i with drops := bump (s.route i).drops 1 }).routes := by cases e <;> rfl
        have hr' : ∀ j, (s.dropCopy i e).route j = (s.setRoute i { s.route i with drops := bump (s.route i).drops 1 }).route j := by
          intro j; unfold State.route; rw [hr]; rfl
        refine ⟨?_, ?_, ?_, ?_⟩
        · rw [hr]; exact Memory.rising_write hw _ _
        · intro j hj; rw [hr', State.route_setRoute _ _ _ _ hw, if_neg (Ne.symm hj)]
        · rw [hr', State.route_setRoute _ _ _ _ hw, if_pos rfl]
        · exact ⟨_, by rw [hr', State.route_setRoute _ _ _ _ hw, if_pos rfl]⟩
    · refine ⟨by cases e <;> exact hw, ?_, ?_, ?_⟩
      · intro j _; cases e <;> rfl
      · cases e <;> rfl
      · exact ⟨(s.route i).drops, by cases e <;> rfl⟩
  · exact ⟨hw, fun _ _ => rfl, rfl, ⟨(s.route i).drops, rfl⟩⟩

/-- A copy attempt takes no buffer from a bank that lends to another owner. -/
theorem State.copyAttempt_buffers (s : State) (i : Nat) (n : SlotId) (st : Stamp) (p : Packet) (e f : Side) (o : Owner)
    (ho : o ≠ egressOwner e) (q : BufferId → Bool) (hq : ∀ id, q id = true → s.lends o id.bank = true) :
    ((s.copyAttempt i n st p e).egress f).buffers.countP q = (s.egress f).buffers.countP q := by
  by_cases hef : f = e
  · subst hef
    unfold State.copyAttempt; split
    · split
      · split
        · next id hid =>
          have hal : s.allocate (egressOwner f) = some id := by
            unfold State.grant at hid; split at hid
            · exact hid
            · simp at hid
          have hl := (State.allocate_spec hal).1
          have hne : q id = false := by
            rw [Bool.eq_false_iff]; intro h
            have h1 := hq id h
            simp only [State.lends, Bool.and_eq_true, beq_iff_eq] at hl h1
            exact ho (h1.1.symm.trans hl.1)
          have hp := Egress.buffers_enqueue (s.egress f) (routedBuffer id (s.route i) f n st p)
          have : ((s.setEgress f ((s.egress f).enqueue (routedBuffer id (s.route i) f n st p))).egress f).buffers.Perm
              (id :: (s.egress f).buffers) := by cases f <;> exact hp
          rw [this.countP_eq, List.countP_cons_of_neg (by simp [hne])]
        · cases f <;> rfl
      · cases f <;> rfl
    · rfl
  · rw [State.copyAttempt_other _ _ _ _ _ _ _ hef]

/-- The copy attempt for one egress does not change what the other one is granted (R111). -/
theorem State.grant_copyAttempt (s : State) (i : Nat) (n : SlotId) (st) (p : Packet) (e : Side) (cls) (u : State)
    (hu : u = s.copyAttempt i n st p (otherSide e)) : u.grant e cls = s.grant e cls := by
  subst hu
  have hre : ((s.copyAttempt i n st p (otherSide e)).egress e) = s.egress e :=
    State.copyAttempt_other _ _ _ _ _ _ _ (by cases e <;> simp [otherSide])
  have hba : (s.copyAttempt i n st p (otherSide e)).banks = s.banks := by rw [State.copyAttempt_frame]
  refine State.grant_congr _ _ _ _ hba (by rw [hre]) fun q hq => ?_
  have hb := fun f => State.copyAttempt_buffers s i n st p (otherSide e) f (egressOwner e)
    (by cases e <;> simp [egressOwner, otherSide]) q hq
  have ha := hb .a
  have hb := hb .b
  have h0 : (s.copyAttempt i n st p (otherSide e)).capture0 = s.capture0 := by rw [State.copyAttempt_frame]
  have h1 : (s.copyAttempt i n st p (otherSide e)).capture1 = s.capture1 := by rw [State.copyAttempt_frame]
  simp only [State.egress] at ha hb
  simp only [State.heldBuffers, List.countP_append, h0, h1, ha, hb]

/-- Routing takes no buffer from a bank that lends to the captures (R110, R120). -/
theorem State.routePacket_buffers (s : State) (n : SlotId) (st : Stamp) (p : Packet) (f : Side) (q : BufferId → Bool)
    (hq : ∀ id, q id = true → s.lends .capture id.bank = true) :
    ((s.routePacket n st p).egress f).buffers.countP q = (s.egress f).buffers.countP q := by
  unfold State.routePacket; split
  · cases f <;> rfl
  · split
    · cases f <;> rfl
    · next i _ =>
      have hb : ((s.hit i).copyAttempt i n st p .a).banks = s.banks := by rw [State.copyAttempt_frame]; rfl
      rw [State.copyAttempt_buffers _ _ _ _ _ _ _ .capture (by simp [egressOwner]) q
        (by intro id h; have := hq id h; simpa [State.lends, hb] using this),
        State.copyAttempt_buffers _ _ _ _ _ _ _ .capture (by simp [egressOwner]) q
        (by intro id h; have := hq id h; simpa [State.lends, State.hit, State.setRoute] using this)]
      cases f <;> rfl

/-- Routing leaves the Bank Map and the captures. -/
theorem State.routePacket_frame (s : State) (n : SlotId) (st : Stamp) (p : Packet) :
    (s.routePacket n st p).banks = s.banks ∧ ∀ c, (s.routePacket n st p).capture c = s.capture c := by
  unfold State.routePacket; split
  · exact ⟨rfl, fun c => by cases c <;> rfl⟩
  · split
    · exact ⟨rfl, fun c => by cases c <;> rfl⟩
    · next i _ =>
      rw [State.copyAttempt_frame]
      refine ⟨?_, fun c => ?_⟩
      · show ((s.hit i).copyAttempt i n st p .a).banks = _
        rw [State.copyAttempt_frame]; rfl
      · have : ∀ c, ((s.hit i).copyAttempt i n st p .a).capture c = s.capture c := by
          intro c; rw [State.copyAttempt_frame]; cases c <;> rfl
        rw [← this c]; cases c <;> rfl

/-- What a context is granted after a delivery's routing is what it would be granted before it (R110, R120), whatever
the contexts hold by then. -/
theorem State.allocate_routePacket (s : State) (n : SlotId) (st : Stamp) (p : Packet) (c : CtxId) (x : CaptureContext) :
    (s.routePacket n st p).allocate .capture = s.allocate .capture ∧
    ((s.routePacket n st p).setCapture c x).allocate .capture = (s.setCapture c x).allocate .capture := by
  obtain ⟨hb, hc⟩ := State.routePacket_frame s n st p
  have h0 := hc .c0
  have h1 := hc .c1
  simp only [State.capture] at h0 h1
  refine ⟨(State.allocate_congr _ _ _ hb fun q hq => ?_).2, (State.allocate_congr _ _ _ ?_ fun q hq => ?_).2⟩
  · have ha := State.routePacket_buffers s n st p .a q hq
    have hb := State.routePacket_buffers s n st p .b q hq
    simp only [State.egress] at ha hb
    simp only [State.heldBuffers, List.countP_append, h0, h1, ha, hb]
  · cases c <;> exact hb
  · have hq' : ∀ id, q id = true → s.lends .capture id.bank = true := by
      intro id h; have := hq id h; cases c <;> exact this
    have ha := State.routePacket_buffers s n st p .a q hq'
    have hb := State.routePacket_buffers s n st p .b q hq'
    simp only [State.egress] at ha hb
    cases c <;> simp only [State.setCapture, State.heldBuffers, List.countP_append, h0, h1, ha, hb]

theorem State.grant_setRoute (s : State) (i r e cls) : (s.setRoute i r).grant e cls = s.grant e cls := by cases e <;> rfl

/-- The four outcomes of a copy attempt (R110 to R113). -/
theorem State.copyAttempt_spec (s : State) (i n st p) (e : Side) : 
   ((s.route i).sends e = false → (s.copyAttempt i n st p e) = s) ∧
   ((s.route i).sends e = true → (s.egress e).run ≠ .running → ((s.copyAttempt i n st p e).egress e) = { s.egress e with counters := { (s.egress e).counters with
            stoppedDiscards := min ((s.egress e).counters.stoppedDiscards + 1) 4294967295 } } ∧ (s.copyAttempt i n st p e).events = s.events) ∧
   ((s.route i).sends e = true → (s.egress e).run = .running → s.grant e (s.route i).cls = none →
       ((s.copyAttempt i n st p e).egress e) = { s.egress e with counters := (s.egress e).counters.countDrop (s.route i).cls } ∧ (s.copyAttempt i n st p e).events = latchEvent (.dropping e) s.events) ∧
   (∀ id, (s.route i).sends e = true → (s.egress e).run = .running → s.grant e (s.route i).cls = some id →
       ((s.copyAttempt i n st p e).egress e) = (s.egress e).enqueue (routedBuffer id (s.route i) e n st p) ∧ (s.copyAttempt i n st p e).events = s.events) := by
  refine ⟨?_, ?_, ?_, ?_⟩
  · intro h; simp [State.copyAttempt, h]
  · intro h1 h2; simp only [State.copyAttempt, h1, if_true, if_neg h2]; cases e <;> exact ⟨rfl, rfl⟩
  · intro h1 h2 h3; simp only [State.copyAttempt, h1, if_true, if_pos h2, h3]; cases e <;> exact ⟨rfl, rfl⟩
  · intro id h1 h2 h3; simp only [State.copyAttempt, h1, if_true, if_pos h2, h3]; cases e <;> exact ⟨rfl, rfl⟩

/-! ## The checks of ROUTE_ADD (R102 to R104) -/

/-- The entry that holds a key. -/
theorem State.lookup_spec (s : State) (slot pid : Nat) :
    let holds := fun i => i < 256 ∧ (s.route i).valid = true ∧ (s.route i).slot.val = slot ∧ (s.route i).pid.toNat = pid
    (s.lookup slot pid = none ↔ ∀ i, ¬holds i) ∧ ∀ i, s.lookup slot pid = some i → holds i := by
  intro holds
  refine ⟨?_, fun i h => ?_⟩
  · simp only [State.lookup, List.find?_eq_none, routeIndices, List.mem_range, RouteEntry.hasKey, holds]
    constructor
    · intro h i ⟨a, b, c, d⟩; have := h i a; simp [b, c, d] at this
    · intro h i a b; simp at b; exact h i ⟨a, b.1.1, b.1.2, b.2⟩
  · have := List.find?_some h
    simp [RouteEntry.hasKey] at this
    exact ⟨State.lookup_lt h, this.1.1, this.1.2, this.2⟩

/-- The entry whose output PID an entry would share on an egress. -/
theorem State.collision_spec (s : State) (own : Option Nat) (e : RouteEntry) (side : Side) :
    let meets := fun i => i < 256 ∧ some i ≠ own ∧ (s.route i).valid = true ∧ (s.route i).sends side = true ∧
      (s.route i).outPid side = e.outPid side
    (s.collision own e side = none ↔ e.sends side = false ∨ ∀ i, ¬meets i) ∧
    ∀ i, s.collision own e side = some i → e.sends side = true ∧ meets i := by
  intro meets
  unfold State.collision
  refine ⟨?_, fun i h => ?_⟩
  · split
    · next h =>
      simp only [h, Bool.true_eq_false, false_or, List.find?_eq_none, routeIndices, List.mem_range,
        RouteEntry.delivers, meets]
      constructor
      · intro h i ⟨a, b, c, d, e⟩; have := h i a; simp [b, c, d, e] at this
      · intro h i a b; simp at b; exact h i ⟨a, b.1, b.2.1.1, b.2.1.2, b.2.2⟩
    · next h => simp at h; simp [h]
  · split at h
    · next hs =>
      have h1 := List.find?_some h
      have h2 := List.mem_of_find?_eq_some h
      simp [RouteEntry.delivers] at h1
      simp [routeIndices] at h2
      exact ⟨hs, h2, h1.1, h1.2.1.1, h1.2.1.2, h1.2.2⟩
    · simp at h

/-- The seven items of R102, as the table tests them. -/
theorem descFaults_spec (d : RouteDesc) :
    (descFaults d).length = 7 ∧ ∀ k, k < 7 → ((descFaults d)[k]? = some true ↔ DescBad d (k + 1)) := by
  have flag : ∀ b : Byte, (flagOf b = none ↔ 1 < b.toNat) ∧ (classOf b = none ↔ 1 < b.toNat) := by
    simp only [flagOf, classOf]; decide +kernel
  have slot : ∀ b : Byte, slotOf b = none ↔ 5 < b.toNat := by
    intro b; unfold slotOf; split <;> simp <;> omega
  refine ⟨rfl, fun k hk => ?_⟩
  match k, hk with
  | 0, _ => simp [descFaults, DescBad, slot]
  | 1, _ => simp [descFaults, DescBad]
  | 2, _ => simp [descFaults, DescBad]
  | 3, _ =>
    simp only [descFaults, DescBad, absentPid]; simp
    exact or_congr (and_congr decide_eq_true_iff Iff.rfl) (and_congr decide_eq_true_iff Iff.rfl)
  | 4, _ =>
    simp only [descFaults, DescBad, outPidBad, absentPid]; simp
    exact or_congr decide_eq_true_iff decide_eq_true_iff
  | 5, _ => simp [descFaults, DescBad, (flag _).2]
  | 6, _ => simp [descFaults, DescBad, (flag _).1, or_assoc]

/-! ## The results of ROUTE_REMOVE (R106) -/

theorem State.removeRoute_status (s : State) (k : RouteKey) :
    (s.removeRoute k).2.status = .ok ∨ (s.removeRoute k).2.status = .notFound := by
  unfold State.removeRoute; split <;> simp

/-- The status of several keys: OK when each was removed, else NOT_FOUND. -/
theorem State.removeRoutes_status (s : State) (ks : List RouteKey) :
    let r := (s.removeRoutes ks).2
    ((∀ x ∈ r, x.status = .ok) → worstStatus r = .ok) ∧ ((∃ x ∈ r, x.status ≠ .ok) → worstStatus r = .notFound) := by
  induction ks generalizing s with
  | nil => simp [State.removeRoutes, worstStatus]
  | cons k ks ih =>
    have ih := ih (s.removeRoute k).1
    simp only [State.removeRoutes, worstStatus]
    rcases s.removeRoute_status k with h | h <;> simp [h]
    simpa using ih

end Sys2Proof.Machine
end

