-- ==== Sys2Proof/Tests/Slice0.lean ====
section
/-! SUPPORT. The model's own tests: operands that are refused, the worked cases of spec/, and for every statement with
hypotheses a state and operands that meet them (witness_<statement>), clause by clause at the boundary values. -/

namespace Sys2Proof.Tests

-- One test at a time: side by side the kernel's evaluations ask for more threads than the memory limit leaves room for.
set_option Elab.async false

open Sys2Proof Sys2Proof.Machine

/-! ## WellFormed refuses an ill-formed term for each check -/

theorem test_wellFormed_refuses_eleven_repairs :
    (Instr.packetCompletion 0 (.corrected 11) (Vector.replicate 188 0) .c0).wellFormed = false := by decide
theorem test_wellFormed_refuses_far_carrier :
    (Instr.syncStructureFound 0 .l .g8 250000001).wellFormed = false := by decide
theorem test_wellFormed_refuses_powerless_arrival :
    (Instr.echoTableBuild 0 [⟨0, 0⟩]).wellFormed = false := by decide
theorem test_wellFormed_refuses_powerless_constellation :
    (Instr.signallingFrameEnd 0 .bad 0 [] 0 1 .wordFirst).wellFormed = false := by decide
theorem test_wellFormed_refuses_listed_code :
    (Instr.unknownRequest .a 0 0x21).wellFormed = false := by decide
theorem test_wellFormed_accepts_unlisted_code :
    (Instr.unknownRequest .a 0 0x00).wellFormed = true := by decide

/-! ## States that the tests start from -/

/-- The state after a command. -/
def after (c : Instr) (s : State) : State :=
  match exec c s with
  | .next t => t
  | .fault _ => s
  | .refused _ => s

/-- The part locked, every block at its power-on values. -/
def live : State := { State.reset with power := .locked }

/-- Slot 0 of the locked part replaced. -/
def withSlot (x : Slot) : State := live.setSlot 0 x

/-- A record with a frequency, and the signalling word of 3.12. -/
def tuned : TuningRecord := { TuningRecord.initial with frequency := some 514000 }

def word (i : BitVec 2) (announced : Bool) : SigWord := ⟨.l, .g32, .p64, .r23, 4170, i, announced⟩

/-- An enabled slot in a state with its phase timer. -/
def slotIn (a : AcqState) (phase : PhaseTimer) : Slot :=
  { Slot.initial with programmed := tuned, active := some tuned, acq := a, phase := phase, detected := some ⟨.l, .g32⟩ }

/-- A slot in TRACK with the record of 3.12 and the window of 4.6. -/
def tracking : Slot :=
  { slotIn .track .stopped with sigRecord := some (word 0 false), window := some (-180), timingRef := some 0 }

/-- A packet with given header bytes 1 to 3 and payload bytes of 0. -/
def packet (b1 b2 b3 : Byte) : Packet := ((((Vector.replicate 188 (0 : Byte)).set 0 0x47).set 1 b1).set 2 b2).set 3 b3

/-- A RUNNING egress with a rate. -/
def running : Egress := { Egress.initial with rate := 38000000, run := .running }

/-- A buffer of slot 0. -/
def buffer (b : Fin 8) (i : Nat) (stamp : Stamp) (p : Packet) : Buffer := ⟨⟨b, i⟩, 0, stamp, .ordinary, true, true, p⟩

/-- A valid entry that sends a key of slot 0 to egress A. -/
def entry (pid : Pid) : RouteEntry := { RouteEntry.initial with valid := true, pid := pid, toA := true }

/-! ## The worked cases of the spec -/

/-- 1.3.1: from 28 dB the overload takes the gain to 22, the evaluation at −8.1 dBFS to 21, and a step up is
suppressed. -/
theorem test_overload_and_recovery :
    let x := { RfInput.initial with gain := 28 }
    x.overloadStep.1.gain = 22 ∧ (x.overloadStep.1.evaluate 81).1.gain = 21 ∧
    ((x.overloadStep.1.evaluate 81).1.evaluate 179).1.gain = 21 ∧
    ({ x with gain := 21, hold := some (msLeft 761400 * 27000) }.evaluate 179).1.report =
      [21, 29, 0xFF, 0x4D, 0, 0] := by decide +kernel

/-- 4.3.1: the ranked list and the total of the worked placement case. -/
theorem test_placement_case :
    let table : List EchoPath := [⟨-180, 40⟩, ⟨0, 256⟩, ⟨120, 96⟩, ⟨310, 64⟩, ⟨900, 10⟩]
    (ranking 16 256 table).map (fun c => (c.reference, c.energy)) = [(0, 352), (-180, 296), (120, 160), (310, 64)] ∧
    totalEnergy 16 table = 456 := by decide +kernel

/-- 4.6: frames 1 to 5 of the changing echo field. -/
theorem test_tracking_example :
    let f1 := tracking.rebuild [⟨-180, 40⟩, ⟨0, 256⟩, ⟨120, 96⟩, ⟨310, 64⟩]
    let f2 := f1.rebuild [⟨-180, 40⟩, ⟨0, 256⟩, ⟨120, 20⟩, ⟨310, 240⟩]
    let f3 := f2.rebuild [⟨-180, 90⟩, ⟨0, 256⟩, ⟨120, 20⟩, ⟨310, 240⟩]
    let f4 := f3.rebuild [⟨-180, 80⟩, ⟨0, 230⟩, ⟨120, 18⟩, ⟨310, 256⟩]
    let f5 := f4.rebuild [⟨0, 230⟩, ⟨120, 18⟩, ⟨310, 256⟩]
    f1.window = some 0 ∧ f1.movePending = true ∧ f2.window = some 0 ∧ f3.window = some (-180) ∧
    f4.window = some (-490) ∧ f4.mainShift = 310 ∧
    f4.echo = [⟨-490, 80⟩, ⟨-310, 230⟩, ⟨-190, 18⟩, ⟨0, 256⟩] ∧ f5.window = some (-190) := by decide +kernel

/-- 3.12: the announced change: the lost index-3 word still takes the slot to SIGNAL, and two words there to
FEC_WAIT. -/
theorem test_announced_change :
    let frame := fun (r : WordResult) (s : State) => after (.signallingFrameEnd 0 r 0 [⟨0, 1⟩] 1 1 .wordFirst) s
    let moved : SigWord := { word 0 false with rate := .r34 }
    let t2 := frame (.good (word 2 true)) (frame (.good (word 1 false)) (withSlot tracking))
    let t3 := frame .bad t2
    let t5 := frame (.good { moved with frameIndex := 1 }) (frame (.good moved) t3)
    (t2.slot 0).changePending = true ∧ t2.events.latched = flagMask (.paramChange 0) ∧
    (t3.slot 0).acq = .signal ∧ (t3.slot 0).framePos = 3 ∧ (t5.slot 0).acq = .fecWait ∧ (t5.slot 0).framePos = 1 := by
  decide +kernel

/-- 5.10: packets 2, 3 and 6 of the burst of errors. -/
theorem test_burst_of_errors :
    let s := withSlot tracking
    let bad := (packet 0 100 0x10).set 0 0x48
    ((after (.packetCompletion 0 (.corrected 3) (packet 0 100 0x10) .c0) s).slot 0).counters =
      ⟨1, 1, 3, 0, 0, 0, 0, 1⟩ ∧
    ((after (.packetCompletion 0 .uncorrectable (packet 0 100 0x10) .c0) s).slot 0).counters =
      ⟨1, 0, 0, 1, 0, 0, 0, 1⟩ ∧
    ((after (.packetCompletion 0 (.corrected 2) bad .c0) s).slot 0).counters = ⟨0, 0, 0, 1, 0, 0, 0, 0⟩ ∧
    ((after (.packetCompletion 0 (.corrected 2) bad .c0) s).slot 0).wrongRun = 1 := by decide +kernel

/-- 6.6: the results of the three descriptions. -/
theorem test_route_add_example :
    let e0 : RouteEntry := { entry 101 with cls := .essential, correct := true }
    let e1 : RouteEntry := { entry 102 with toB := true, outB := some 202 }
    let e3 : RouteEntry :=
      { RouteEntry.initial with valid := true, slot := 1, pid := 301, toB := true, correct := true, renumber := true }
    let s := ((live.setRoute 0 e0).setRoute 1 e1).setRoute 3 e3
    let r := s.addRoutes [⟨0, 2, 101, 1, 0xFFFF, 0xFFFF, 0, 0, 0⟩, ⟨0, 2, 101, 1, 121, 0xFFFF, 0, 0, 0⟩,
      ⟨1, 0, 102, 1, 0xFFFF, 0xFFFF, 0, 0, 1⟩]
    r.2.flatMap addResultBytes = [4, 0, 1, 0, 2, 0, 0, 1, 1] ∧ worstStatus r.2 = .conflict ∧
    r.1.lookup 2 101 = some 2 := by decide +kernel

/-- 7.7: a bank that holds buffers begins to drain, a second request gets BUSY, and the last free completes the drain. -/
theorem test_moving_a_bank :
    let s := live.setEgress .a { running with queues := running.queues.set 0 [buffer 3 0 0 (packet 0 100 0x10)] }
    let t := (s.assignBank 3 .egressB).2
    (s.assignBank 3 .egressB).1 = .ok ∧ t.bankRecord 3 = [0x63, 127] ∧ t.poolCapacity .egressA = 384 ∧
    t.poolHolding .egressA = 1 ∧ (t.assignBank 3 .capture).1 = .busy ∧
    ((t.setEgress .a running).afterFree [⟨3, 0⟩]).banks[3] = ⟨.egressB, .active⟩ := by decide +kernel

/-- 8.6: the counters written on one PID after a START. -/
theorem test_renumbering_example :
    let x := { running with continuity := [] }
    let b := fun c : Byte => buffer 0 0 0 (packet 0 102 c)
    let x1 := x.renumberTable (b 0x3A)
    let x2 := x1.renumberTable (b 0x2A)
    packetCc (x.renumbered (b 0x3A)) = 0 ∧ packetCc (x1.renumbered (b 0x2A)) = 0 ∧
    packetCc (x2.renumbered (b 0x1A)) = 1 ∧ packetCc (x.renumbered (b 0x2A)) = 15 := by decide +kernel

/-- A packet that carries a clock reference. -/
def clockPacket (base : BitVec 33) (ext : BitVec 9) : Packet :=
  packetSetClock (((packet 0 100 0x30).set 4 7).set 5 0x10) base ext

/-- 8.7.1 and 8.7.2: the correction at the wrap and with a negative offset. -/
theorem test_clock_correction_cases :
    let p := correctPacket (residence 900 4294966846) 0 (clockPacket 8589934591 299)
    let q := correctPacket 500 (-2000) (clockPacket 3 100)
    residence 900 4294966846 = 1350 ∧ packetClockBase p = 4 ∧ packetClockExt p = 149 ∧
    packetClockBase q = 8589934590 ∧ packetClockExt q = 100 := by decide +kernel

/-- 8.8: an empty assembly and one packet give three cells and 8 bytes; the second packet starts at 8. -/
theorem test_packing_from_empty :
    let x := Egress.initial.appendPacket nullPacket
    x.txBuffer.map StreamCell.startOffset = [0, 255, 255] ∧ x.assembly.bytes.length = 8 ∧
    (x.appendPacket nullPacket).txBuffer.map StreamCell.startOffset = [0, 255, 255, 8, 255, 255] := by decide +kernel

/-- 8.10.1: at the second due slot c0 is stale and e0 is sent. -/
theorem test_rotating_with_stale_discard :
    let q : Vector (List Buffer) 6 :=
      ((Vector.replicate 6 []).set 2 [buffer 0 1 7200000 nullPacket, buffer 0 2 7302138 nullPacket]).set 4
        [buffer 0 3 9995000 nullPacket]
    let s := live.setEgress .a { running with pointer := 0, queues := q, dueStamps := [10001069] }
    let t := after (.dueSlot .a) s
    t.egressA.pointer = 4 ∧ t.egressA.counters.stale = 1 ∧ t.egressA.counters.sent = 1 ∧
    t.events.latched = flagMask (.stale .a) ∧ t.heldBuffers = [⟨0, 2⟩] := by decide +kernel

/-- 8.12: STOP with fill 40: one END cell with its start offset, then STOPPED when it leaves. -/
theorem test_stop_in_mid_stream :
    let s := live.setEgress .b { running with assembly := ⟨List.replicate 40 1, 16, false⟩ }
    let t := (s.egressControl 1 actionStop).state
    t.egressB.run = .stopping ∧
    t.egressB.txBuffer = [⟨List.replicate 40 1 ++ List.replicate 20 0xFF, 16, true⟩] ∧
    (t.arbitrate .b).egressB.run = .stopped ∧ (t.arbitrate .b).linkB.line.take 4 = [0x11, 16, 0, headerCheck 0x11 16 0] := by
  decide +kernel

/-- 9.1.1: the header of a request. -/
theorem test_request_header :
    crcByte 0 0x80 = 0x89 ∧ crcByte 0x89 0x00 = 0xB6 ∧ headerCheck 0x80 0x00 0x00 = 0x0B := by decide +kernel

/-- 10.6: at 64 ticks a2 and b1 wait, A was served last, and b1 is taken. -/
theorem test_links_share_the_agent :
    let s : State := { live with agent :=
      ⟨[requestPayload 2 .describe], [requestPayload 1 .describe], [], [], .a, some 0⟩ }
    let t := after .serviceIntervalEnd s
    t.agent.requestsB = [] ∧ t.agent.requestsA.length = 1 ∧ t.agent.lastServed = .b ∧ t.agent.interval = some 64 ∧
    t.agent.repliesB.map Reply.tag = [1] := by decide +kernel

/-- 11.5: the SECTION capture. -/
theorem test_section_capture :
    let c := startedCapture .a 3 0 .sectionMode 0
    let d1 := c.qualify (some ⟨7, 0⟩) (packet 0 0 0x17)
    let d2 := d1.qualify (some ⟨7, 0⟩) (packet 0x40 0 0x18)
    let d3 := d2.qualify (some ⟨7, 1⟩) (packet 0 0 0x19)
    let d4 := d3.qualify (some ⟨7, 2⟩) (packet 0x40 0 0x1A)
    d1 = c ∧ d2.captured = 1 ∧ d3.captured = 2 ∧ d4.captured = 2 ∧ d4.state = .draining ∧
    d4.endReason = some .sectionDone ∧ (d2.qualify (some ⟨7, 1⟩) (packet 0 0 0x1B)).endReason = some .gap := by
  decide +kernel

/-- The ratio 1 is 0 dB, 0.05 dB up rounds to 0.1 dB, and 10 is 10 dB. -/
theorem test_mer_of_powers : merOf 1 1 = 0 ∧ merOf 10 1 = 100 ∧ merOf 1 0 = 450 := by decide +kernel

/-- From the power-on reset: release, lock, then the first command (log entry 30). -/
theorem test_start_up :
    (after .pllLock (after (.resetRelease .external) State.reset)).power = .locked ∧
    after (.describe .a 1) State.reset = State.reset := by decide +kernel

/-! ## Witnesses: what the statements' hypotheses ask for can be met -/

theorem witness_StepRunsTheFrontCommand : State.reset.pending = [] := by decide

theorem witness_ResetAndStartUp :
    State.reset.power = .held ∧ (after (.resetRelease .crystal) State.reset).power = .acquiring := by decide +kernel

/-- The moments before and at the wrap and at each period's end, and the pacer below, at and without its threshold. -/
theorem witness_TickMovesTimersAlone :
    let s : State := { live with time := ⟨4294967295, .crystal, 26999, 269999, 63⟩ }
    let r := fun acc => live.setEgress .a { running with acc := acc }
    live.power = .locked ∧ live.time.oneMs < 26999 ∧ live.time.tenMs < 269999 ∧ live.time.cellTicks < 63 ∧
    s.power = .locked ∧ s.time.stc = 4294967295 ∧ s.time.oneMs = 26999 ∧ s.time.tenMs = 269999 ∧
    s.time.cellTicks = 63 ∧ ((withSlot (slotIn .sync (.ticks 1))).slot 0).phase = .ticks 1 ∧
    ((r 40569999999).egress .a).run = .running ∧
    ((r 40569999999).egress .a).acc + ((r 40569999999).egress .a).rate < 40608000000 ∧
    40608000000 ≤ ((r 40570000000).egress .a).acc + ((r 40570000000).egress .a).rate ∧
    (live.egress .b).run ≠ .running := by decide +kernel

/-- A low run below and at its 2 ms, a line that is not armed, and a loss of signal in SYNC at 62 and 63 ticks. -/
theorem witness_TickMovesTimersAlone_runs :
    let low := fun k => { live with aux := { AuxUnit.initial with protection := true, drive1 := .low, lowRun := k } }
    let lost := fun k => live.setLink .a { LinkUnit.initial with signal := false, delin := .sync, lossTicks := k }
    ((low 53999).aux.armed = true ∧ (low 53999).aux.pin1 = false ∧ (after .stcTick (low 53999)).aux.lowRun = 54000 ∧
      (after .stcTick (low 54000)).aux.lowRun = 54000) ∧
    live.aux.armed = false ∧
    (((lost 62).link .a).signal = false ∧ ((lost 62).link .a).delin = .sync ∧ ((lost 62).link .a).lossTicks < 63 ∧
      ((after .stcTick (lost 62)).link .a).lossTicks = 63) ∧
    (63 ≤ ((lost 63).link .a).lossTicks ∧ ((after .stcTick (lost 63)).link .a).lossDue = 1) ∧
    (live.link .a).signal = true := by decide +kernel

/-- An input with a gain, a hold and every moment due. -/
def inputAt (gain : Nat) (hold : Option Nat) (clips : Nat) : State :=
  live.setInput .rf1 { RfInput.initial with
    gain := gain, hold := hold, clipNow := clips, evalDue := true, clipDue := true, overloadDue := true }

/-- The limits of the window at 151, 150, 90 and 89 tenths below full scale, and of the gain at 40, 39, 1 and 0. -/
theorem witness_GainLoopAndOverload :
    ((inputAt 39 none 0).power = .locked ∧ ((inputAt 39 none 0).input .rf1).evalDue = true ∧
      ((inputAt 39 none 0).input .rf1).hold = none ∧ ((inputAt 39 none 0).input .rf1).gain < 40) ∧
    40 ≤ ((inputAt 40 none 0).input .rf1).gain ∧ ((inputAt 40 (some 1) 0).input .rf1).hold ≠ none ∧
    150 < 151 ∧ 90 ≤ 150 ∧ 90 ≤ 90 ∧ 89 < 90 ∧
    0 < ((inputAt 1 none 0).input .rf1).gain ∧ ((inputAt 0 none 0).input .rf1).gain = 0 ∧
    ((inputAt 5 none 16).input .rf1).clipDue = true ∧ ((inputAt 5 none 17).input .rf1).overloadDue = true ∧
    ((inputAt 5 (some 0) 0).input .rf1).hold = some 0 := by decide +kernel

theorem witness_FrontReadReports : live.Serves .a ∧ live.Serves .b := by decide +kernel

theorem witness_AuxReadReports : live.Serves .b := by decide +kernel

/-- Codes 0 to 2 in range and 3 out of it; an armed line that is held low before and after. -/
theorem witness_AuxSetReplacesModes :
    let s : State := { live with aux := { AuxUnit.initial with protection := true, drive1 := .low, lowRun := 5 } }
    s.Serves .a ∧ lineModeOf 0 = some .input ∧ lineModeOf 1 = some .openDrain ∧ lineModeOf 2 = some .pushPull ∧
    lineModeOf 3 = none ∧ flagOf 0 = some false ∧ flagOf 1 = some true ∧ flagOf 2 = none ∧
    s.aux.armed = true ∧ (after (.auxSet .a 1 2 0 1) s).aux.armed = true ∧ s.aux.pin1 = false ∧
    (after (.auxSet .a 1 0 1 1) s).aux.armed = false := by decide +kernel

/-- Protection that becomes armed over a low line starts its run at 0, and a high line stands at 0. -/
theorem witness_AuxSetReplacesModes_run :
    let s : State := { live with aux := { AuxUnit.initial with drive1 := .low } }
    let high : State := { live with aux := { AuxUnit.initial with protection := true, drive1 := .high } }
    (s.Serves .a ∧ s.aux.armed = false ∧ s.aux.pin1 = false ∧ (after (.auxSet .a 1 0 0 1) s).aux.armed = true ∧
      (after (.auxSet .a 1 0 0 1) s).aux.lowRun = 0) ∧
    high.Serves .a ∧ high.aux.armed = true ∧ high.aux.pin1 = true := by decide +kernel

theorem witness_AuxWriteLoadsBothLatches :
    live.Serves .a ∧
    ((3 : Byte).toNat < 4 ∧ (3 : Byte).getLsbD 0 = true ∧ (1 : Byte).toNat < 2 ∧ (3 : Byte).getLsbD 1 = true ∧
      (0 : Byte).toNat < 2) ∧
    4 ≤ (4 : Byte).toNat ∧ ((1 : Byte).getLsbD 0 = true ∧ 2 ≤ (2 : Byte).toNat) ∧ (2 : Byte).getLsbD 1 = true := by
  decide +kernel

/-- The low run of an armed line under a write to it, and a line that is not armed or high. -/
theorem witness_AuxWriteLoadsBothLatches_run :
    let s := fun drive => { live with aux := { AuxUnit.initial with protection := true, drive1 := drive, lowRun := 5 } }
    ((s .low).Serves .a ∧ (s .low).aux.armed = true ∧ (s .low).aux.pin1 = false ∧
      (after (.auxWrite .a 1 2 0 1) (s .low)).aux.lowRun = 5) ∧
    (s .high).aux.pin1 = true ∧ live.aux.armed = false := by decide +kernel

theorem witness_MastProtectionTrips :
    let s : State := { live with aux := { AuxUnit.initial with protection := true, drive1 := .low, lowRun := 54000 } }
    s.power = .locked ∧ s.aux.armed = true ∧ s.aux.pin1 = false ∧ 54000 ≤ s.aux.lowRun ∧
    (after (.aux1LevelChange .low .high) s).aux.pin1 = false ∧
    (after (.aux1LevelChange .floating .high) s).aux.pin1 = true ∧ live.aux.armed = false := by decide +kernel

/-- The claim law of a state in which slot 0 alone claims a pair. -/
theorem claimLaw_of_slot0 (s : State) (h : ∀ n, (s.slot n).RecordLaw)
    (none_ : ∀ k : SlotId, k ≠ 0 → (s.slot k).programmedClaim = none ∧ (s.slot k).activeClaim = none) : s.ClaimLaw := by
  refine ⟨h, fun n m pair hn hm => ?_⟩
  have zero : ∀ k : SlotId, (s.slot k).claims pair → k = 0 := fun k hk => by
    by_cases h : k = 0
    · exact h
    · rcases hk with hk | hk <;> simp [none_ k h] at hk
  rw [zero n hn, zero m hm]

/-- SLOT_SET of one slot's frequency. -/
def setFrequency (mask : Byte) (f : BitVec 24) : SlotSetParams :=
  ⟨mask, 2, 0, f, 8, 0, 0, 0, 0, 0, 0, 0, 8, 12, 2, 16, 500, 32, 0⟩

/-- Each check at its limits: masks 0 and 64, frequencies 173,999 and 174,000, the frequency taken from an enabled slot,
and the pair of slot 0 asked for slot 1. -/
theorem witness_SlotSetIsAllOrNothing :
    let s := withSlot tracking
    s.Serves .a ∧
    (setBadShape (setFrequency 2 174000) = none ∧ s.setUnsets (setFrequency 2 174000) = none ∧
      s.setConflict (setFrequency 2 174000) = none) ∧
    setBadShape (setFrequency 0 174000) = some [1, 0] ∧ setBadShape (setFrequency 64 174000) = some [1, 0] ∧
    setBadShape (setFrequency 3 174000) = some [2, 0] ∧ setBadShape (setFrequency 2 173999) = some [3, 2] ∧
    (setBadShape (setFrequency 1 0) = none ∧ s.setUnsets (setFrequency 1 0) = some 0) ∧
    (s.setUnsets (setFrequency 2 514000) = none ∧ s.setConflict (setFrequency 2 514000) = some [1, 0, 0]) ∧
    (setFrequency 1 0).present.getLsbD 1 = true ∧ (setFrequency 1 0).present.getLsbD 0 = false ∧
    (0xFFFF : BitVec 16).getLsbD 8 = true ∧ (0xFFFF : BitVec 16).getLsbD 12 = true := by decide +kernel

/-- Fields 10 and 12 at their limits and beside them, the pair refused for two slots, and the first bad field of two. -/
theorem witness_SlotSetIsAllOrNothing_fields :
    let p := { setFrequency 2 862001 with present := 0x0A02, dwell := 64, candidateLimit := 5 }
    (¬(p.mask.toNat = 0 ∨ 64 ≤ p.mask.toNat) ∧ p.present.getLsbD 1 = true ∧ FieldBad p 2 ∧ ¬FieldBad p 10 ∧ FieldBad p 12) ∧
    (FieldBad { p with dwell := 65 } 10 ∧ FieldBad { p with dwell := 3 } 10 ∧ ¬FieldBad { p with dwell := 2 } 10 ∧
      ¬FieldBad { p with candidateLimit := 4 } 12 ∧ FieldBad { p with candidateLimit := 0 } 12) ∧
    setBadShape p = some [3, 2] ∧ setBadShape { p with frequency := 862000 } = some [3, 12] ∧
    ((0 : SlotId) ≠ 1 ∧ (3 : Byte).getLsbD 0 = true ∧ (3 : Byte).getLsbD 1 = true ∧ 1 < 2) := by
  refine ⟨?_, ?_, ?_⟩
  · simp [setFrequency, FieldBad]
  · simp [FieldBad]
  · decide +kernel

/-- Slot 0 enabled on 514 MHz with its programmed record moved on: the pair of its active record asked for slot 1. -/
theorem witness_SlotSetIsAllOrNothing_conflicts :
    let s := withSlot { tracking with programmed := { tuned with frequency := some 600000 } }
    let p := setFrequency 2 514000
    s.ClaimLaw ∧ (withSlot tracking).ClaimLaw ∧ setBadShape p = none ∧ p.mask.getLsbD 1 = true ∧
    (setWrite p (s.slot 1).programmed).Holds .rf0 514000 ∧ ((withSlot tracking).slot 0).programmed.Holds .rf0 514000 ∧
    (¬(s.slot 0).programmed.Holds .rf0 514000 ∧ (s.slot 0).acq ≠ .off ∧ (s.slot 0).active = some tuned ∧
      tuned.Holds .rf0 514000 ∧ s.setConflict p = some [1, 0, 1]) :=
  ⟨claimLaw_of_slot0 _ (by decide +kernel) (by decide +kernel),
    claimLaw_of_slot0 _ (by decide +kernel) (by decide +kernel), by decide +kernel⟩

theorem witness_EnableStartsASlot_law : (withSlot { Slot.initial with programmed := tuned }).ClaimLaw :=
  claimLaw_of_slot0 _ (by decide +kernel) (by decide +kernel)

theorem witness_EnableStartsASlot :
    let off := withSlot { Slot.initial with programmed := tuned }
    (live.Serves .a ∧ (live.slot 0).acq = .off ∧ (live.slot 0).programmed.frequency = none) ∧
    (off.Serves .a ∧ (off.slot 0).acq = .off ∧ (off.slot 0).programmed.frequency = some 514000 ∧
      ∀ m, m ≠ 0 → (off.slot m).activeClaim ≠ some ((off.slot 0).programmed.input, 514000)) ∧
    (0 < (63 : Byte).toNat ∧ (63 : Byte).toNat < 64 ∧ (1 : SlotId) ≠ 0 ∧ (off.slot 1).acq = .off ∧
      (off.slot 1).programmed.frequency = none ∧ (off.slot 0).programmed.frequency ≠ none) ∧
    ((1 : SlotId) ≠ 0 ∧ ((off.setSlot 1 tracking).slot 1).activeClaim = some ((off.slot 0).programmed.input, 514000)) ∧
    ((withSlot tracking).slot 0).acq ≠ .off := by decide +kernel

theorem witness_DisableStopsItsSlots :
    (withSlot tracking).Serves .a ∧ 0 < (1 : Byte).toNat ∧ (1 : Byte).toNat < 64 ∧ (63 : Byte).toNat < 64 := by
  decide +kernel

theorem witness_RetuneAndTheFrameOfSlotControl :
    live.Serves .a ∧ (live.slot 0).acq = .off ∧ (withSlot tracking).Serves .a ∧ ((withSlot tracking).slot 0).acq = .track ∧
    ((withSlot (slotIn .hold (.ticks 1))).slot 0).acq ≠ .off ∧ (62 : Byte).getLsbD 0 = false ∧
    ((3 : Byte).getLsbD 1 = true ∧ ((withSlot tracking).slot 1).acq = .off ∧ (3 : Byte) &&& (slotBit 1 - 1) = 1) ∧
    (0 : Byte).toNat = 0 ∧ 64 ≤ (64 : Byte).toNat := by decide +kernel

/-- Slots 0 in TRACK and 1 in SENSE retuned, with slot 2 in OFF behind them: the capture of slot 0 ends, that of slot 1
stays. -/
theorem witness_RetuneAndTheFrameOfSlotControl_captures :
    let s := (((withSlot tracking).setSlot 1 (slotIn .sense (.ticks 1))).setCapture .c0
      (startedCapture .a 0 0 .count 1)).setCapture .c1 (startedCapture .a 1 0 .count 1)
    let both := after (.retune .a 1 3) s
    let first := after (.retune .a 1 7) s
    (s.Serves .a ∧ (s.slot 0).acq = .track ∧ (s.slot 1).acq ≠ .off ∧ (s.slot 2).acq = .off ∧
      (s.capture .c0).slot = 0 ∧ (s.capture .c1).slot = 1) ∧
    (both.capture .c0 = leftTrack 0 (s.capture .c0) ∧ (both.capture .c0).state = .draining ∧
      both.capture .c1 = s.capture .c1) ∧
    (first.capture .c0 = both.capture .c0 ∧ first.capture .c1 = s.capture .c1 ∧
      first.agent.repliesA.map (fun r => (r.status, r.data.take 2)) = [(.badState, [3, 2])]) := by decide +kernel

theorem witness_SlotReadReturnsAPage :
    live.Serves .a ∧ 5 < (6 : Byte).toNat ∧ 4 < (5 : Byte).toNat ∧ (5 : Byte).toNat = (5 : SlotId).val ∧
    (live.slot 0).active = none ∧ tracking.active = some tuned := by decide +kernel

/-- Page 3 of a slot with one path before its main path, a window and one candidate. -/
theorem test_echo_page :
    let x := { tracking with
      echo := [⟨-1, 128⟩, ⟨0, 256⟩], total := 384, candidates := [⟨-1, 384, .passed, 5⟩], mainShift := -1 }
    x.echoPage.take 16 = [0x24, 0x10, 0x18, 0x01, 0x80, 0xFF, 0xFF, 0xFF, 0x4C, 0xFF, 0xFA, 0x02, 0x00, 0x04, 0x02, 0] ∧
    x.echoPage.drop 33 = [0xFF, 0xF8, 0xC0, 0x30, 0x00, 0x50] ++ List.replicate 16 0 := by decide +kernel

/-- The threshold of −45 dBFS at 450 and 451 tenths; a pair that the record allows and one that it does not. -/
theorem witness_SenseAndSyncFindTheSignal :
    let s := withSlot (slotIn .sense (.ticks 0))
    let w := withSlot { slotIn .sense (.ticks 0) with senseWaiting := true }
    let y := withSlot { slotIn .sync (.ticks 9) with active := some { tuned with guardFraction := some .g8 } }
    (s.power = .locked ∧ (s.slot 0).acq = .sense ∧ (s.slot 0).phase = .ticks 0 ∧ (s.slot 0).senseWaiting = false) ∧
    10 * (s.slot 0).tuning.threshold ≤ -(min 450 800 : Nat) ∧ -(min 451 800 : Nat) < 10 * (s.slot 0).tuning.threshold ∧
    ((w.slot 0).phase = .ticks 0 ∧ (w.slot 0).senseWaiting = true) ∧
    (y.power = .locked ∧ (y.slot 0).acq = .sync ∧ (y.slot 0).tuning.mode = none ∧
      (y.slot 0).tuning.guardFraction = some .g8 ∧ (.g8 : Guard) ≠ .g4) := by decide +kernel

theorem witness_PhaseTimersEndTheirStates :
    live.power = .locked ∧
    ((withSlot (slotIn .sync (.ticks 0))).slot 0).phase = .ticks 0 ∧
    ((withSlot (slotIn .fecWait (.ticks 0))).slot 0).acq = .fecWait ∧
    ((withSlot (slotIn .signal (.frames 1))).slot 0).phase = .frames 1 ∧
    ((withSlot (slotIn .backoff (.ticks 0))).slot 0).acq = .backoff ∧
    ((withSlot (slotIn .hold (.ticks 0))).slot 0).acq = .hold := by decide +kernel

/-- A mismatching word, an agreeing one with no record and with a record of each kind, a first word, a word that cannot
take part, and the sixth result. -/
theorem witness_SignallingWordsInSignal :
    let s := withSlot { slotIn .signal (.frames 2) with halfMade := some (word 1 false) }
    let y := { s.slot 0 with freqOffset := some (storedOffset 0) }
    let picky := { y with active := some { tuned with cellId := some 4107 } }
    s.power = .locked ∧ y.acq = .signal ∧ picky.mismatches (word 2 false) = true ∧ y.mismatches (word 2 false) = false ∧
    (word 2 false).announced = false ∧ y.detected = some ⟨(word 2 false).mode, (word 2 false).guardFraction⟩ ∧
    y.halfMade = some (word 1 false) ∧ word 2 false = { word 1 false with frameIndex := (word 1 false).frameIndex + 1 } ∧
    y.sigRecord = none ∧ word 0 false ≠ { word 1 false with frameIndex := (word 1 false).frameIndex + 1 } ∧
    y.phase = .frames (0 + 2) ∧ (word 2 true).announced = true ∧
    y.detected ≠ some ⟨.l, ({ word 2 false with guardFraction := .g8 } : SigWord).guardFraction⟩ ∧
    ((withSlot { slotIn .signal (.frames 1) with sigRecord := some (word 3 false) }).slot 0).phase = .frames 1 ∧
    (word 3 false).mode = (word 2 false).mode ∧
    ({ word 3 false with mode := .s } : SigWord).mode ≠ (word 2 false).mode ∧
    (let z := { slotIn .signal (.frames 1) with halfMade := some (word 1 false) }
     z.mismatches (word 0 false) = false ∧ z.phase = .frames 1 ∧
     word 0 false ≠ { word 1 false with frameIndex := (word 1 false).frameIndex + 1 }) := by decide +kernel

theorem witness_WordsMoveTheFramePosition :
    live.power = .locked ∧ ((withSlot (slotIn .window .stopped)).slot 0).acq = .window ∧
    ((withSlot (slotIn .fecWait (.ticks 1))).slot 0).acq = .fecWait ∧
    ((withSlot (slotIn .hold (.ticks 1))).slot 0).acq = .hold := by decide +kernel

/-- A frame end in HOLD, with the entry to HOLD taken first and not. -/
theorem test_hold_estimate :
    let s := withSlot { slotIn .hold (.ticks 1) with mer := some 7 }
    let mer := fun order => ((after (.signallingFrameEnd 0 .bad 0 [] 10 1 order) s).slot 0).mer
    mer .exitFirst = some 7 ∧ mer .wordFirst = some 100 ∧ mer .rebuildFirst = some 100 := by decide +kernel

/-- Announcing words at index 2 and 3, and the second of two agreeing incompatible words of each kind. -/
theorem witness_ParameterChangesLeaveTrack :
    let faster : SigWord := { word 0 false with rate := .r34 }
    let wider : SigWord := { word 0 false with guardFraction := .g4 }
    let s := withSlot { tracking with halfMade := some { faster with frameIndex := 3 } }
    (s.power = .locked ∧ (s.slot 0).acq = .track ∧ (s.slot 0).sigRecord = some (word 0 false) ∧
      (s.slot 0).changePending = false) ∧
    (word 2 true = { word 0 false with frameIndex := (word 2 true).frameIndex, announced := true } ∧
      (word 2 true).frameIndex ≠ 3) ∧
    (word 3 true = { word 0 false with frameIndex := (word 3 true).frameIndex, announced := true } ∧
      (word 3 true).frameIndex = 3) ∧
    (faster ≠ { word 0 false with frameIndex := faster.frameIndex, announced := faster.announced } ∧
      (s.slot 0).halfMade = some { faster with frameIndex := 3 } ∧
      faster = { { faster with frameIndex := 3 } with frameIndex := 3 + 1 } ∧
      (faster.mode = (word 0 false).mode ∧ faster.guardFraction = (word 0 false).guardFraction)) ∧
    (wider = { { wider with frameIndex := 3 } with frameIndex := 3 + 1 } ∧
      ¬(wider.mode = (word 0 false).mode ∧ wider.guardFraction = (word 0 false).guardFraction)) := by decide +kernel

/-- Positions 2 and 3 by a bad word, and with change pending a further announcing word, one that announces nothing and an
incompatible one at index 3. -/
theorem witness_ParameterChangesLeaveTrack_boundary :
    let faster : SigWord := { word 3 false with rate := .r34 }
    let s := withSlot { tracking with changePending := true, framePos := 2 }
    let frame := fun r order => (after (.signallingFrameEnd 0 r 0 [⟨0, 1⟩] 1 1 order) s)
    ((s.slot 0).acq = .track ∧ (s.slot 0).sigRecord = some (word 0 false) ∧ (s.slot 0).changePending = true ∧
      (s.slot 0).framePos + 1 = 3 ∧ (s.slot 0).halfMade = none) ∧
    ((1 : BitVec 2) + 1 ≠ 3 ∧ faster.frameIndex = 3 ∧
      faster ≠ { word 0 false with frameIndex := faster.frameIndex, announced := faster.announced }) ∧
    (∀ order ∈ [FrameOrder.rebuildFirst, .wordFirst, .exitFirst],
      ∀ r ∈ [WordResult.bad, .good (word 3 false), .good (word 3 true), .good faster],
        ((frame r order).slot 0).acq = .signal ∧ (frame r order).events.latched.getLsbD 4 = false) ∧
    (((frame (.good (word 2 true)) .wordFirst).slot 0).changePending = true ∧
      (frame (.good (word 2 true)) .wordFirst).events.latched.getLsbD 4 = false) := by decide +kernel

/-- A rebuild that leaves energy uncaptured, with a good word in each order, and one that the boundary before it forestalls. -/
theorem witness_ParameterChangesLeaveTrack_spread :
    let arrivals : List Arrival := [⟨0, 100⟩, ⟨900, 100⟩]
    let spread := fun order x => (after (.signallingFrameEnd 0 (.good (word 1 false)) 0 arrivals 1 1 order) (withSlot x)).events.latched
    let z := tracking.rebuild arrivals
    let late := { tracking with changePending := true, framePos := 2 }
    z.window.map (fun w => decide (capturedEnergy z.tuning.captureThreshold z.span z.echo w < z.total)) = some true ∧
    (∀ order ∈ [FrameOrder.rebuildFirst, .wordFirst, .exitFirst], (spread order tracking).getLsbD 3 = true) ∧
    ((after (.signallingFrameEnd 0 .bad 0 arrivals 1 1 .wordFirst) (withSlot late)).events.latched.getLsbD 3 = false ∧
      (after (.signallingFrameEnd 0 .bad 0 arrivals 1 1 .rebuildFirst) (withSlot late)).events.latched.getLsbD 3 = true) := by
  decide +kernel

theorem witness_EchoTablesAreWellFormed :
    echoTable (some ⟨.s, .g4⟩) [⟨0, 100⟩, ⟨1023, 1⟩, ⟨1024, 90⟩, ⟨-1024, 50⟩] =
      [⟨-1024, 128⟩, ⟨0, 256⟩, ⟨1023, 3⟩] := by decide +kernel

/-- Nine paths for seven places: of equal ones the latest is left out, the floor is 1.5, and the limits of the range count. -/
theorem test_echo_table_places :
    let equal : List Arrival := [⟨80, 100⟩, ⟨70, 100⟩, ⟨60, 100⟩, ⟨50, 100⟩, ⟨40, 100⟩, ⟨30, 100⟩]
    let table := fun more => echoTable (some ⟨.s, .g4⟩) (⟨0, 1000⟩ :: equal ++ more)
    mainArrival (⟨0, 1000⟩ :: equal) = some ⟨0, 1000⟩ ∧ mainArrival [⟨5, 0⟩] = none ∧
    table [⟨-5, 999⟩, ⟨1023, 101⟩, ⟨1024, 900⟩, ⟨-1024, 50⟩] =
      [⟨-5, 255⟩, ⟨0, 256⟩, ⟨30, 26⟩, ⟨40, 26⟩, ⟨50, 26⟩, ⟨60, 26⟩, ⟨70, 26⟩, ⟨80, 26⟩] ∧
    (table [⟨9, 102⟩, ⟨10, 102⟩]).map EchoPath.delay = [0, 9, 10, 30, 40, 50, 60, 70] ∧
    echoTable (some ⟨.s, .g4⟩) [⟨0, 1000⟩, ⟨1, 5⟩, ⟨2, 6⟩, ⟨2, 1⟩, ⟨3, 1000⟩] = [⟨0, 256⟩, ⟨2, 2⟩, ⟨3, 256⟩] ∧
    echoTable none [⟨0, 1⟩, ⟨4095, 1⟩, ⟨4096, 1⟩] = [⟨0, 256⟩, ⟨4095, 256⟩] := by decide +kernel

theorem witness_CapturedEnergyIsBounded :
    (∀ p ∈ [(⟨0, 256⟩ : EchoPath), ⟨256, 2⟩], 0 < p.power) ∧
    capturedEnergy 2 256 [⟨0, 256⟩, ⟨256, 2⟩] 0 = totalEnergy 2 [⟨0, 256⟩, ⟨256, 2⟩] ∧
    capturedEnergy 2 255 [⟨0, 256⟩, ⟨256, 2⟩] 0 ≠ totalEnergy 2 [⟨0, 256⟩, ⟨256, 2⟩] := by decide +kernel

theorem witness_BuildBeginsTheTrials :
    let s := withSlot (slotIn .window .stopped)
    let x := s.slot 0
    s.power = .locked ∧ x.acq = .window ∧ x.trialTimer = none ∧
    (ranking x.tuning.captureThreshold x.span (echoTable x.detected [⟨7, 1⟩])).take x.tuning.candidateLimit =
      [⟨0, 256, .notTried, 0⟩] ∧
    (∀ a ∈ [(⟨3, 0⟩ : Arrival)], a.power = 0) ∧
    ([⟨-1, 255⟩, ⟨0, 256⟩] : List EchoPath).Pairwise (fun p q => p.delay < q.delay) ∧
    x.detected = some ⟨.l, .g32⟩ := by decide +kernel

/-- Errors at the threshold and one above it. -/
theorem witness_TrialsSettleCountAndEnd :
    let c : Candidate := ⟨0, 256, .counting, 12⟩
    let d : Candidate := ⟨-180, 40, .notTried, 0⟩
    let s := fun c : Candidate => withSlot { slotIn .window .stopped with candidates := [c, d], trialTimer := some 0 }
    ((s c).power = .locked ∧ ((s c).slot 0).acq = .window ∧ ((s c).slot 0).candidates = c :: [d] ∧
      (∀ e ∈ [d], e.trial = .notTried) ∧ ((s c).slot 0).trialTimer = some 0) ∧
    ({ c with trial := .settling } : Candidate).trial = .settling ∧ c.errors ≤ ((s c).slot 0).tuning.pilotLimit ∧
    ((s c).slot 0).tuning.pilotLimit < ({ c with errors := 13 } : Candidate).errors ∧
    (let b : Candidate := ⟨300, 400, .failed, 13⟩
     let w := withSlot { slotIn .window .stopped with candidates := [b, c, d], trialTimer := some 0 }
     (w.slot 0).candidates = [b] ++ c :: [d] ∧ b.trial = .failed ∧
     ((after (.countHalfEnd 0) w).slot 0).window = some 0) := by decide +kernel

/-- Frames 1 and 2 of 4.6: the margin met and missed. -/
theorem witness_WindowMovesByOneEighth :
    let f1 : List Arrival := [⟨-180, 40⟩, ⟨0, 256⟩, ⟨120, 96⟩, ⟨310, 64⟩]
    let t := fun a : List Arrival => echoTable tracking.detected a
    mainArrival f1 = some ⟨0, 256⟩ ∧ tracking.window = some (-180) ∧
    (ranking 16 256 (t f1)).take 2 = [⟨0, 352, .notTried, 0⟩, ⟨-180, 296, .notTried, 0⟩] ∧
    ((0 : Int) ≠ -180 ∧ 296 + 296 / 8 ≤ 352) ∧ ¬(276 + 276 / 8 ≤ 296) ∧
    ((withSlot { tracking with movePending := true }).slot 0).movePending = true ∧
    (mainShiftOf (some 100) 104 = 0 ∧ mainShiftOf (some 100) 105 = 5 ∧ mainShiftOf (some 100) 96 = 0 ∧
      mainShiftOf (some 100) 95 = -5) ∧
    (clampDelay (some ⟨.l, .g4⟩) 4096 = 4095 ∧ clampDelay (some ⟨.s, .g4⟩) (-1025) = -1024) ∧
    mainArrival [⟨9, 5⟩, ⟨3, 5⟩] = some ⟨3, 5⟩ ∧ (∀ a ∈ [(⟨3, 0⟩ : Arrival)], a.power = 0) := by decide +kernel

/-- A slot without a window, and the total and the list of a rebuild. -/
theorem witness_WindowMovesByOneEighth_list :
    let x := { tracking with window := none }
    let y := x.rebuild [⟨-180, 40⟩, ⟨0, 256⟩, ⟨120, 96⟩, ⟨310, 64⟩]
    mainArrival [⟨-180, 40⟩, ⟨0, 256⟩, ⟨120, 96⟩, ⟨310, 64⟩] = some ⟨0, 256⟩ ∧ x.window = none ∧
    y.window = none ∧ y.movePending = false ∧ y.total = 456 ∧
    y.candidates.map (fun c => (c.reference, c.energy)) = [(0, 352), (-180, 296)] := by decide +kernel

theorem witness_FrameEndRebuildsAndMeasures :
    (withSlot tracking).power = .locked ∧ ((withSlot tracking).slot 0).acq = .track ∧
    ((withSlot tracking).slot 0).changePending = false ∧ storedOffset 250000000 = 250000 ∧
    storedOffset (-250000000) = -250000 ∧ storedOffset 499 = 0 ∧ storedOffset 500 = 1 := by decide +kernel

/-- A bad word leaves the same slot in every order. -/
theorem test_bad_word_orders :
    let frame := fun order => (after (.signallingFrameEnd 0 .bad 0 [⟨-180, 40⟩, ⟨0, 256⟩] 10 1 order) (withSlot tracking)).slot 0
    frame .wordFirst = frame .rebuildFirst ∧ frame .exitFirst = frame .rebuildFirst ∧
    (frame .wordFirst).framePos = 1 ∧ (frame .wordFirst).mer = some 100 := by decide +kernel

/-- The runs at 2 and 3, a right and a wrong sync byte. -/
theorem witness_PacketsBeforeAndAfterTrack :
    let fec := withSlot { slotIn .fecWait (.ticks 5) with syncRun := 3 }
    let hold := withSlot { slotIn .hold (.ticks 5) with goodRun := 3 }
    fec.power = .locked ∧ (fec.slot 0).acq = .fecWait ∧ (fec.slot 0).syncRun = 3 ∧
    ((withSlot { slotIn .fecWait (.ticks 5) with syncRun := 2 }).slot 0).syncRun ≠ 3 ∧
    (packet 0 0 0)[0] = 0x47 ∧ ((packet 0 0 0).set 0 0x46)[0] ≠ 0x47 ∧
    hold.power = .locked ∧ (hold.slot 0).acq = .hold ∧ (hold.slot 0).goodRun = 3 := by decide +kernel

/-- The burst limit reached at 32 and not at 31, the fourth wrong sync byte, a hold time and none. -/
theorem witness_BadPacketsInTrack :
    let s := fun unc wrong holdMs => withSlot { tracking with
      uncRun := unc, wrongRun := wrong, active := some { tuned with holdMs := holdMs } }
    ((s 31 0 500).power = .locked ∧ ((s 31 0 500).slot 0).acq = .track ∧ ((packet 0 0 0).set 0 0)[0] ≠ 0x47) ∧
    ((s 31 0 500).slot 0).tuning.burstLimit ≤ ((s 31 0 500).slot 0).uncRun + 1 ∧
    ((s 31 0 500).slot 0).tuning.holdMs ≠ 0 ∧ ((s 0 3 0).slot 0).tuning.holdMs = 0 ∧
    4 ≤ ((s 0 3 0).slot 0).wrongRun + 1 ∧
    ¬(((s 30 2 0).slot 0).tuning.burstLimit ≤ ((s 30 2 0).slot 0).uncRun + 1 ∨ 4 ≤ ((s 30 2 0).slot 0).wrongRun + 1) := by
  decide +kernel

/-- A right sync byte under MARK at the burst limit: packets delivered is then the free value of log entry 33. -/
theorem witness_BadPacketsInTrack_withheld :
    let s := withSlot { tracking with uncRun := 31, wrongRun := 3 }
    s.power = .locked ∧ (s.slot 0).acq = .track ∧ (packet 0 0 0)[0] = 0x47 ∧ (s.slot 0).tuning.policy = .mark ∧
    (s.slot 0).tuning.burstLimit ≤ (s.slot 0).uncRun + 1 ∧ (s.slot 0).tuning.holdMs ≠ 0 := by decide +kernel

/-- An entry for PID 100 with egress A STOPPED, RUNNING with room, and RUNNING at its reserve. -/
theorem witness_DeliveredPacketsAreRouted :
    let s := (withSlot tracking).setRoute 5 (entry 100)
    let r := s.setEgress .a running
    let full := s.setEgress .a { running with reserve := 512 }
    (s.power = .locked ∧ s.TablesCanonical ∧ (s.slot 0).acq = .track ∧ 1 ≤ (s.slot 0).tuning.burstLimit ∧
      (packet 0 100 0x10)[0] = 0x47) ∧
    packetPid (packet 0x1F 0xFF 0x10) = 8191 ∧
    (packetPid (packet 0 101 0x10) ≠ 8191 ∧ s.lookup 0 (packetPid (packet 0 101 0x10)).toNat = none) ∧
    s.lookup 0 (packetPid (packet 0 100 0x10)).toNat = some 5 ∧
    ((s.route 5).sends .a = true ∧ (s.route 5).sends .b = false ∧ (s.egress .a).run ≠ .running) ∧
    ((r.egress .a).run = .running ∧ r.grant .a (r.route 5).cls = some ⟨0, 0⟩) ∧
    full.grant .a (full.route 5).cls = none ∧
    (after (.packetCompletion 0 .clean (packet 0 100 0x10) .c0) (r.setCapture .c0 (startedCapture .a 0 100 .count 2))).heldBuffers =
      [⟨0, 0⟩, ⟨7, 0⟩] := by decide +kernel

/-- A drop at egress A and a copy at egress B: DROPPING of A alone, with an alert where it is enabled. -/
theorem witness_DeliveredPacketsAreRouted_flags :
    let s := ((withSlot tracking).setRoute 5 { entry 100 with toB := true }).setEgress .a { running with reserve := 512 }
    let u : State := { s.setEgress .b running with events := { EventUnit.initial with enabled := 1 <<< 30, alertB := true } }
    let t := after (.packetCompletion 0 .clean (packet 0 100 0x10) .c0) u
    (u.grant .a (u.route 5).cls = none ∧ u.grant .b (u.route 5).cls = some ⟨4, 0⟩ ∧ (u.route 5).sends .b = true) ∧
    t.events.latched = flagMask (.dropping .a) ∧ summary u.events = false ∧ summary t.events = true ∧
    t.events.pendingA = false ∧ t.events.pendingB = true := by decide +kernel

/-- A drop leaves all of its egress but the counter. -/
theorem test_drop_leaves_the_egress :
    let s := ((withSlot tracking).setRoute 5 (entry 100)).setEgress .a { running with reserve := 512, acc := 7, pointer := 2 }
    let t := after (.packetCompletion 0 .clean (packet 0 100 0x10) .c0) s
    t.egressA.counters.ordinaryDrops = 1 ∧ t.egressA = { s.egressA with counters := t.egressA.counters } := by decide +kernel

theorem witness_CorrectedAndMarkedPacketsAreDelivered :
    let s := withSlot { tracking with uncRun := 30 }
    s.power = .locked ∧ (s.slot 0).acq = .track ∧ (packet 0 100 0x10)[0] = 0x47 ∧ (s.slot 0).tuning.policy = .mark ∧
    (s.slot 0).uncRun + 1 < (s.slot 0).tuning.burstLimit := by decide +kernel

/-- A free count at the reserve and above it, no free buffer, and a bank that drains with and without a held buffer. -/
theorem witness_BuffersAreAllocatedAndFreed :
    let at_ := live.setEgress .a { running with reserve := 512 }
    let above := live.setEgress .a { running with reserve := 511 }
    let none_ : State := { live with banks := Vector.replicate 8 ⟨.egressB, .active⟩ }
    let draining : State := { live with banks := live.banks.set 7 ⟨.capture, .draining .egressA⟩ }
    let suspended := live.setCapture .c0 { CaptureContext.initial with state := .suspended }
    at_.poolFree (egressOwner .a) ≤ (at_.egress .a).reserve ∧ (above.egress .a).reserve < above.poolFree (egressOwner .a) ∧
    none_.poolFree (egressOwner .a) = 0 ∧ 1 ≤ live.poolFree (egressOwner .a) ∧
    live.allocate .egressB = some ⟨4, 0⟩ ∧ draining.banks[7].state = .draining .egressA ∧ draining.bankFree 7 = 128 ∧
    live.banks[7].state = .active ∧ (suspended.capture .c0).state = .suspended ∧ 1 ≤ suspended.poolFree .capture := by
  decide +kernel

/-- A description of slot 5. -/
def desc (replace : Byte) (pid : BitVec 16) (outA : BitVec 16) : RouteDesc :=
  ⟨replace, 0, pid, 1, outA, 0xFFFF, 0, 0, 0⟩

/-- The full table of 256 valid entries. -/
def fullTable : State :=
  { live with routes := (List.range 256).map fun i => (i, entry (BitVec.ofNat 13 i)) }

theorem witness_RouteAddWritesOneEntry :
    let s := live.setRoute 0 (entry 100)
    s.Serves .a ∧ (0 : Byte).toNat = 0 ∧ 3 < (4 : Byte).toNat ∧ 1 ≤ (1 : Byte).toNat ∧ (3 : Byte).toNat ≤ 3 ∧
    firstFault 1 (descFaults (desc 0 8191 0xFFFF)) = some 2 ∧ firstFault 1 (descFaults (desc 0 8190 0xFFFF)) = none ∧
    (s.lookup 0 100 = some 0 ∧ (desc 0 100 0xFFFF).replace = 0 ∧ (desc 1 100 0xFFFF).replace = 1) ∧
    s.collision none (entryOf (desc 0 7 100)) .a = some 0 ∧
    (s.collision none (entryOf (desc 0 7 0xFFFF)) .a = none ∧ s.collision none (entryOf (desc 0 7 0xFFFF)) .b = none) ∧
    ((s.route 0).valid = true ∧ (s.route 1).valid = false) ∧
    (let b := live.setRoute 0 { entry 100 with toA := false, toB := true }
     b.collision none (entryOf ⟨0, 1, 100, 3, 0xFFFF, 0xFFFF, 0, 0, 0⟩) .a = none ∧
     b.collision none (entryOf ⟨0, 1, 100, 3, 0xFFFF, 0xFFFF, 0, 0, 0⟩) .b = some 0) ∧
    (fullTable.Serves .a ∧ fullTable.lookup 0 300 = none ∧ (∀ i ∈ List.range 256, (fullTable.route i).valid = true) ∧
      fullTable.collision none (entryOf (desc 0 300 0xFFFF)) .a = none ∧
      fullTable.collision none (entryOf (desc 0 300 0xFFFF)) .b = none) := by decide +kernel

/-- The items of R102 at their limits and beside them, and the first of two. -/
theorem witness_RouteAddWritesOneEntry_items :
    let d := desc 0 8190 0xFFFF
    let e := { d with slot := 6, pid := 8191 }
    (∀ k, k < 8 → ¬DescBad d k) ∧ DescBad e 1 ∧ DescBad e 2 ∧ ¬DescBad { e with slot := 5 } 1 ∧
    (DescBad { d with egressSet := 0 } 3 ∧ DescBad { d with egressSet := 4 } 3 ∧ ¬DescBad { d with egressSet := 3 } 3) ∧
    (DescBad { d with outB := 0 } 4 ∧ ¬DescBad { d with outA := 8190 } 4 ∧ ¬DescBad { d with outA := 8190 } 5 ∧
      DescBad { d with outA := 8191 } 5) ∧
    (DescBad { d with cls := 2 } 6 ∧ ¬DescBad { d with cls := 1 } 6 ∧ DescBad { d with renumber := 2 } 7 ∧
      ¬DescBad { d with correct := 1 } 7) ∧ ((live.addRoute e).2.status = .badArg ∧ (live.addRoute e).2.detail = 1) := by
  refine ⟨fun k hk => ?_, ?_, ?_, ?_, ?_, ?_, ?_, by decide +kernel⟩
  · match k, hk with
    | 0, _ | 1, _ | 2, _ | 3, _ | 4, _ | 5, _ | 6, _ | 7, _ => simp [desc, DescBad]
  all_goals simp [desc, DescBad]

/-- The second description meets the entry that the first one wrote, and each has its own result. -/
theorem test_descriptions_in_order :
    (live.addRoutes [desc 0 100 0xFFFF, desc 0 100 0xFFFF, desc 0 7 100]).2.map (fun r => (r.status, r.index, r.detail)) =
      [(.ok, 0, 0), (.conflict, 0, 0), (.conflict, 0, 1)] := by decide +kernel

theorem witness_RouteClearInvalidatesEveryEntry :
    (live.setRoute 255 (entry 100)).Serves .a ∧ (live.setRoute 255 (entry 100)).TablesCanonical := by decide +kernel

theorem witness_RouteRemoveAndRead :
    (live.setRoute 255 (entry 100)).Serves .a ∧ (live.setRoute 255 (entry 100)).lookup 0 100 = some 255 ∧
    live.lookup 0 100 = none ∧ 8 < (9 : Byte).toNat ∧ (8 : Byte).toNat ≤ 8 ∧ (253 : Byte).toNat ≤ 253 ∧
    (254 : Byte).toNat = 254 ∧ (255 : Byte).toNat = 255 := by decide +kernel

/-- An entry's 17 bytes, and a key removed twice. -/
theorem test_entry_record_and_removal :
    let r : RouteEntry := { entry 8190 with slot := 5, toB := true, outB := some 0x123, cls := .essential, renumber := true, drops := 258 }
    let k : RouteKey := ⟨5, 8190⟩
    entryBytes 255 r = [255, 0xD3, 0xBF, 0xFE, 0xFF, 0xFF, 0x01, 0x23, 0, 0, 0, 0, 0, 0, 1, 2, 0] ∧
    ((live.setRoute 255 r).removeRoutes [k, k]).2.map (fun r => (r.status, r.index)) = [(.ok, 255), (.notFound, 0)] := by decide +kernel

/-- Two keys of which the second is not found: each handled, and NOT_FOUND for the request. -/
theorem test_two_keys :
    let keys := (Vector.replicate 8 (⟨0, 0⟩ : RouteKey)).set 0 ⟨0, 100⟩
    let t := after (.routeRemove .a 1 2 keys) (live.setRoute 7 (entry 100))
    t.agent.repliesA.map (fun r => (r.status, r.data.take 4)) = [(.notFound, [0, 7, 6, 0])] ∧ (t.route 7).valid = false := by
  decide +kernel

/-- A DRAINING bank, one wholly free, and one that holds a buffer. -/
theorem witness_BanksChangeOwner :
    let held := live.setEgress .a { running with queues := running.queues.set 0 [buffer 0 127 0 nullPacket] }
    let draining : State := { live with banks := live.banks.set 7 ⟨.capture, .draining .none⟩ }
    live.Serves .a ∧ (7 : Byte).toNat = (7 : Fin 8).val ∧ ownerOf 3 = some .capture ∧ ownerOf 0 = some .none ∧
    (draining.Serves .a ∧ draining.banks[7].state = .draining .none) ∧
    (live.banks[7].state = .active ∧ live.banks[7].owner = .capture ∧ live.bankFree 7 = 128) ∧
    (held.Serves .a ∧ held.banks[0].state = .active ∧ held.banks[0].owner ≠ .capture ∧ held.bankFree 0 < 128) ∧
    3 < (4 : Byte).toNat ∧ 7 < (8 : Byte).toNat := by decide +kernel

/-- EGRESS_SET of egress A with every setting present. -/
def settings (rate : BitVec 32) (policy : Byte) (age : BitVec 16) : EgressSetParams :=
  ⟨0, 31, rate, policy, 1025, age, 0x800000⟩

/-- The limits of the rate, the policy and the age limit, and a changed rate of a RUNNING egress. -/
theorem witness_EgressSetWritesPresentSettings :
    let ok := settings 2000000 1 1000
    let r := live.setEgress .a running
    live.Serves .a ∧ 1 < (2 : Byte).toNat ∧ 32 ≤ (32 : Byte).toNat ∧
    (sideOf ok.egress = some .a ∧ ok.present.toNat < 32 ∧ ok.present.getLsbD 0 = true) ∧
    (2000000 ≤ ok.rate.toNat ∧ ok.rate.toNat ≤ 72000000 ∧ ¬1 < ok.policy.toNat ∧ ok.ageLimit.toNat ≤ 1000) ∧
    ¬((settings 1999999 0 1).rate.toNat = 0 ∨ 2000000 ≤ (settings 1999999 0 1).rate.toNat) ∧
    ¬(settings 72000001 0 1).rate.toNat ≤ 72000000 ∧ 1 < (settings 0 2 1).policy.toNat ∧
    (ok.present.getLsbD 3 = true ∧ ¬(1 ≤ (settings 0 0 0).ageLimit.toNat) ∧ ¬(settings 0 0 1001).ageLimit.toNat ≤ 1000) ∧
    (r.Serves .a ∧ ok.rate.toNat ≠ (r.egress .a).rate ∧ (r.egress .a).run ≠ .stopped) ∧
    1024 < ok.reserve.toNat := by decide +kernel

/-- Each state of the egress, and each way a stream can end. -/
theorem witness_StartAndStopTheStream :
    let x := fun y : Egress => live.setEgress .a y
    let cell : StreamCell := ⟨List.replicate 60 0, 255, false⟩
    (live.Serves .a ∧ sideOf 0 = some .a ∧ (live.egress .a).run = .stopped ∧ (live.egress .a).rate = 0) ∧
    ((x { Egress.initial with rate := 2000000 }).poolCapacity (egressOwner .a) ≠ 0 ∧
      ((x { Egress.initial with rate := 2000000 }).egress .a).rate ≠ 0) ∧
    ((x running).Serves .a ∧ ((x running).egress .a).run = .running) ∧
    ((x { running with run := .stopping }).egress .a).run = .stopping ∧ 1 < (2 : Byte).toNat ∧
    (let y := (x { running with assembly := ⟨[1], 0, false⟩, txBuffer := [cell, cell, cell] }).egress .a
     y.assembly.bytes = 1 :: [] ∧ y.txBuffer.length < 4) ∧
    4 ≤ ((x { running with assembly := ⟨[1], 0, false⟩, txBuffer := [cell, cell, cell, cell] }).egress .a).txBuffer.length ∧
    (((x { running with txBuffer := [cell] }).egress .a).assembly.bytes = [] ∧
      ((x { running with txBuffer := [cell] }).egress .a).txBuffer = [] ++ [cell]) ∧
    ((x running).egress .a).txBuffer = [] := by decide +kernel

/-- A STOP that frees the last buffer of a bank that drains to CAPTURE, one that leaves it held, and one that frees no buffer
of it, with a SUSPENDED capture. -/
theorem witness_StartAndStopTheStream_banks :
    let s := fun q : List Buffer => (live.setEgress .a { running with queues := running.queues.set 0 q }).setCapture .c0
      { startedCapture .a 0 0 .count 1 with state := .suspended }
    let draining := fun u : State => { u with banks := (u.banks.set 3 ⟨.egressA, .draining .capture⟩).set 7 ⟨.none, .active⟩ }
    let u := draining (s [buffer 3 0 0 nullPacket])
    let held := draining ((s [buffer 3 0 0 nullPacket]).setCapture .c1
      { startedCapture .a 0 0 .count 1 with pending := [.packet ⟨3, 1⟩ 0 nullPacket] })
    let t := after (.stop .a 1 0) u
    let v := after (.stop .a 1 0) held
    (u.Serves .a ∧ u.banks[3].state = .draining .capture ∧ (u.capture .c0).state = .suspended ∧
      (∃ id ∈ (u.egress .a).buffers, id.bank = 3) ∧ t.bankFree 3 = 128 ∧ t.banks[3] = ⟨.capture, .active⟩ ∧
      1 ≤ t.poolFree .capture ∧ (t.capture .c0).state = .active) ∧
    (v.bankFree 3 ≠ 128 ∧ v.banks[3] = held.banks[3] ∧ (v.capture .c0).state = .suspended) ∧
    (let w := draining (s [])
     (∀ id ∈ (w.egress .a).buffers, id.bank ≠ 3) ∧ (after (.stop .a 1 0) w).banks[3] = w.banks[3]) := by decide +kernel

theorem witness_EgressReadReturnsAPage :
    let w := live.setEgress .a { running with run := .stopping, assembly := ⟨List.replicate 60 1, 0, true⟩ }
    live.Serves .a ∧ 1 < (2 : Byte).toNat ∧ 3 < (4 : Byte).toNat ∧ 8191 < (8192 : BitVec 16).toNat ∧
    sideOf 1 = some .b ∧ (live.egress .b).assembly.isEnd = false ∧ (w.Serves .a ∧ (w.egress .a).assembly.isEnd = true) ∧
    (8191 : BitVec 16).toNat ≤ 8191 := by decide +kernel

/-- Page 1 of an egress with one buffer, and page 3 from PID 8190, from 8191, and the last start with 96 entries. -/
theorem test_egress_pages :
    let x : Egress := { Egress.initial with continuity := [(8190, 7), (8191, 9)] }
    let s := live.setEgress .a { running with queues := running.queues.set 5 [buffer 0 1 0x01020304 nullPacket] }
    x.continuityPage 8190 = [0x1F, 0xFE, 2, 0x79] ∧ x.continuityPage 8191 = [0x1F, 0xFF, 1, 0x90] ∧
    (x.continuityPage 8096).length = 51 ∧ (x.continuityPage 8096).getLast? = some 0x79 ∧
    s.queuePage .a = List.replicate 30 0 ++ [0, 1, 1, 2, 3, 4] ++ [2, 0, 1, 0xFF, 0, 1] := by decide +kernel

/-- A head buffer at the age limit and one tick above it, and empty sub-queues. -/
theorem witness_DueSlotAppendsOnePacket :
    let b := buffer 0 0 0 nullPacket
    let s := live.setEgress .a { running with dueStamps := [2700000], queues := running.queues.set 0 [b] }
    let idle := live.setEgress .a { running with dueStamps := [5] }
    (s.power = .locked ∧ (s.egress .a).run = .running ∧ (s.egress .a).dueStamps = 2700000 :: [] ∧
      (s.egress .a).assembly.bytes.length < 60) ∧
    (s.egress .a).select = some (0, b, []) ∧
    ((2700000 : Stamp) - b.arrival).toNat ≤ (s.egress .a).ageLimit * 27000 ∧
    (s.egress .a).ageLimit * 27000 < ((2700001 : Stamp) - b.arrival).toNat ∧
    ((idle.egress .a).dueStamps = 5 :: [] ∧ ∀ n : SlotId, (idle.egress .a).queues[n] = []) ∧
    (let fill := fun k => live.setEgress .a { running with dueStamps := [5], assembly := ⟨List.replicate k 1, 8, false⟩ }
     let starts := fun k => ((after (.dueSlot .a) (fill k)).egress .a).txBuffer.map StreamCell.startOffset
     starts 51 = [8, 255, 255] ∧ starts 52 = [8, 255, 255, 255] ∧ starts 59 = [8, 255, 255, 255]) := by decide +kernel

theorem witness_DueSlotSelectsAndRewrites :
    let b := buffer 0 0 0 (clockPacket 8589934591 299)
    let x := { running with queues := running.queues.set 5 [b] }
    x.continuity.Pairwise (fun p q => p.1 < q.1) ∧ b.renumber = true ∧ ({ b with renumber := false } : Buffer).renumber = false ∧
    (b.correct = true ∧ packetError b.packet = false ∧ packetHasClockRef b.packet = true) ∧
    packetHasClockRef (packet 0 0 0x10) = false ∧
    (∀ n : SlotId, running.queues[n] = []) ∧ x.queues[(5 : SlotId)] ≠ [] ∧ x.select = some (5, b, []) ∧ x.policy = .rotating ∧
    ({ x with policy := .fixed } : Egress).select = some (5, b, []) := by decide +kernel

/-- A link at the start of a position with nothing to send. -/
def atPosition : State := live.setLink .a { LinkUnit.initial with positionDue := true }

/-- Each choice of the arbiter, and each item at the head of a pending list. -/
theorem witness_ArbiterSendsByPriority :
    let cell : StreamCell := ⟨List.replicate 60 0, 255, true⟩
    let stream := atPosition.setEgress .a { running with run := .stopping, txBuffer := [cell] }
    let waits := atPosition.setEgress .a
      { running with run := .stopping, txBuffer := [cell], assembly := ⟨List.replicate 60 1, 0, true⟩ }
    let alert : State := { atPosition with events := { EventUnit.initial with pendingA := true } }
    let reply : State := { atPosition with agent := { Agent.initial with repliesA := [⟨1, 2, .ok, 0, []⟩] } }
    let holds := fun item => atPosition.setCapture .c0 { startedCapture .a 0 0 .count 1 with pending := [item] }
    let head := holds (.packet ⟨7, 0⟩ 0 nullPacket)
    (atPosition.power = .locked ∧ (atPosition.link .a).positionDue = true) ∧
    ((stream.egress .a).txBuffer = cell :: [] ∧ (stream.egress .a).assembly.isEnd = false) ∧
    ((waits.egress .a).txBuffer = cell :: [] ∧ (waits.egress .a).assembly.isEnd = true) ∧
    ((alert.egress .a).txBuffer = [] ∧ alert.events.alertPending .a = true) ∧
    (reply.events.alertPending .a = false ∧ reply.agent.replies .a = ⟨1, 2, .ok, 0, []⟩ :: [] ∧
      reply.agent.requestsA = [] ∧ reply.agent.requestsB = []) ∧
    (head.agent.replies .a = [] ∧ (head.capture .c0).offers .a = true ∧ (head.capture .c1).offers .a = false) ∧
    (head.capture .c0).pending = .packet ⟨7, 0⟩ 0 nullPacket :: [] ∧ (head.capture .c0).headFragment ≠ 3 ∧
    ((holds (.roundEnd 1 0 1)).capture .c0).pending = .roundEnd 1 0 1 :: [] ∧
    ((holds (.endRecord .gap 1 0 0 false)).capture .c0).pending = .endRecord .gap 1 0 0 false :: [] ∧
    (head.link .a).capturePointer = otherContext .c0 ∧
    ((atPosition.capture .c0).offers .a = false ∧ (atPosition.capture .c1).offers .a = false) := by decide +kernel

/-- An END cell that waits behind a full buffer, an IDLE Agent with a waiting request and a full reply queue, one whose
interval runs, and fragment 3 of the last buffer of a DRAINING bank with the other context SUSPENDED. -/
theorem witness_ArbiterSendsByPriority_departures :
    let cell : StreamCell := ⟨List.replicate 60 0, 255, false⟩
    let waits := atPosition.setEgress .a { running with
      run := .stopping, txBuffer := [cell, cell, cell, cell], assembly := ⟨List.replicate 60 1, 0, true⟩ }
    let p := requestPayload 1 .describe
    let full := fun interval => { atPosition with agent :=
      { Agent.initial with requestsA := [p], repliesA := List.replicate 8 ⟨1, 2, .ok, 0, []⟩, interval := interval } }
    let s : State := ((atPosition.setCapture .c0
        { startedCapture .a 0 0 .count 1 with pending := [.packet ⟨6, 0⟩ 0 nullPacket], headFragment := 3 }).setCapture .c1
        { startedCapture .a 1 0 .count 1 with state := .suspended })
    let draining : State := { s with banks := s.banks.set 6 ⟨.egressB, .draining .capture⟩ }
    let t := after (.cellPosition .a) draining
    (((waits.egress .a).txBuffer = cell :: [cell, cell, cell] ∧ (waits.egress .a).assembly.isEnd = true) ∧
      ((after (.cellPosition .a) waits).egress .a).txBuffer.map StreamCell.isEnd = [false, false, false, true] ∧
      (after (.cellPosition .a) waits).linkA.line.take 3 = [0x10, 255, 0]) ∧
    ((full none).agent.interval = none ∧ (full none).agent.requests .a = p :: [] ∧ (full none).agent.requests .b = [] ∧
      ((full none).agent.replies .a).length = 7 + 1 ∧
      ((after (.cellPosition .a) (full none)).agent.replies .a).length = 8 ∧ (full (some 5)).agent.interval.isSome = true ∧
      ((after (.cellPosition .a) (full (some 5))).agent.replies .a).length = 7) ∧
    (draining.banks[6].state = .draining .capture ∧ (draining.capture .c0).offers .a = true ∧
      (draining.capture .c1).offers .a = false ∧ (draining.capture .c0).headFragment = 3 ∧
      t.banks[6] = ⟨.capture, .active⟩ ∧ (t.capture .c1).state = .active ∧ (t.capture .c0).pending = []) := by decide +kernel

/-- Alerts pending on both links: the one sent is gone and the other stays. -/
theorem test_alert_sent :
    let s : State := { atPosition with events := { EventUnit.initial with pendingA := true, pendingB := true } }
    let t := after (.cellPosition .a) s
    t.events = { s.events with pendingA := false } ∧ t.linkA.line.take 1 = [0x40] := by decide +kernel

theorem witness_HeaderCheckDetectsSingleBitErrors :
    wordPasses 0x8000000B = true ∧ 31 < 32 ∧ wordPasses (0x8000000B ^^^ (1 <<< 31)) = false := by decide +kernel

/-- A link in a state with a received signal. -/
def linkIn (d : Delineation) (good bad lossDue : Nat) : State :=
  live.setLink .a { LinkUnit.initial with
    delin := d, boundary := d != .hunt, goodRun := good, badRun := bad, lossDue := lossDue }

theorem witness_DelineationFindsTheBoundary :
    live.power = .locked ∧ (live.link .a).signal = true ∧ (live.link .a).delin = .hunt ∧
    wordPasses 0 = true ∧ wordPasses 1 = false ∧
    (((linkIn .presync 4 0 0).link .a).delin = .presync ∧ ((linkIn .presync 4 0 0).link .a).goodRun = 4) ∧
    ((linkIn .presync 3 0 0).link .a).goodRun ≠ 4 ∧ ((linkIn .sync 5 0 0).link .a).delin ≠ .presync ∧
    (((linkIn .sync 5 3 1).link .a).delin = .sync ∧ 0 < ((linkIn .sync 5 3 1).link .a).lossDue ∧
      ((linkIn .sync 5 3 1).link .a).badRun = 3) ∧ ((linkIn .sync 5 2 1).link .a).badRun ≠ 3 ∧
    (let lost := fun k => live.setLink .b { LinkUnit.initial with signal := false, delin := .sync, lossTicks := k }
     ((lost 62).link .b).signal = false ∧ ((lost 62).link .b).delin = .sync ∧ ((lost 62).link .b).lossTicks < 63 ∧
     63 ≤ ((lost 63).link .b).lossTicks ∧ ((lost 63).link .b).delin ≠ .hunt ∧ ((lost 63).link .b).delin ≠ .presync ∧
     ((lost 63).link .b).lossDue = 0) := by decide +kernel

/-- A cell with a passing header of a kind. -/
def cellOf (b0 : Byte) (payload : List Byte) : CellBytes :=
  ⟨(([b0, 0, 0, headerCheck b0 0 0] ++ padTo 60 payload).toArray), by simp [padTo]⟩

/-- Failing and passing headers at bad runs 2 and 3, the kinds, and a queue of three and of four. -/
theorem witness_CellsInSync :
    let busy := fun q => { linkIn .sync 5 3 0 with agent := { Agent.initial with interval := some 0, requestsA := q } }
    let p := requestPayload 1 .describe
    ((linkIn .sync 5 3 0).power = .locked ∧ ((linkIn .sync 5 3 0).link .a).signal = true ∧
      ((linkIn .sync 5 3 0).link .a).delin = .sync ∧ ((linkIn .sync 5 3 0).link .a).badRun = 3) ∧
    ((linkIn .sync 5 2 0).link .a).badRun ≠ 3 ∧
    (let k := cellOf 0 []; headerCheck k[0] k[1] k[2] = k[3] ∧ k[0].toNat / 16 = 0) ∧
    (let k := (cellOf 0 []).set 3 1; ¬headerCheck k[0] k[1] k[2] = k[3]) ∧
    (let k := cellOf 0xF0 []; headerCheck k[0] k[1] k[2] = k[3] ∧ k[0].toNat / 16 ≠ 0 ∧ k[0].toNat / 16 ≠ 8) ∧
    (let k := cellOf 0x80 p; headerCheck k[0] k[1] k[2] = k[3] ∧ k[0].toNat / 16 = 8) ∧
    ((busy [p, p, p]).agent.interval = some 0 ∧ ((busy [p, p, p]).agent.requests .a).length < 4) ∧
    4 ≤ ((busy [p, p, p, p]).agent.requests .a).length := by decide +kernel

theorem witness_RequestsReadBackFromTheirPayload :
    let k := cellOf 0x80 (requestPayload 1 (.slotSet (setFrequency 2 174000)))
    let s := linkIn .sync 5 0 0
    (0x00 : Byte) ∉ knownCodes ∧ s.power = .locked ∧ (s.link .a).signal = true ∧ (s.link .a).delin = .sync ∧
    headerCheck k[0] k[1] k[2] = k[3] ∧ k[0].toNat / 16 = 8 ∧
    k.toList.drop 4 = requestPayload 1 (.slotSet (setFrequency 2 174000)) := by decide +kernel

/-- A payload that no row writes: a listed code with bytes where a row writes zeros, taken at once and made to wait. -/
theorem witness_RequestsReadBackFromTheirPayload_any :
    let p := padTo 60 [0x01, 7, 0xAA]
    let s := linkIn .sync 5 3 0
    let full := { s with agent := { Agent.initial with repliesA := List.replicate 8 ⟨1, 2, .ok, 0, []⟩ } }
    (byteAt p 0 ∈ knownCodes ∧ (0xFE : Byte) ∉ knownCodes ∧ s.Serves .a ∧ ¬full.Serves .a ∧ (cellOf 0x80 p).toList.drop 4 = p) ∧
    (after (.syncCell .a (cellOf 0x80 p)) s).agent.repliesA.map Reply.tag = [7] ∧
    ((after (.syncCell .a (cellOf 0x80 p)) full).agent.requestsA = [p] ∧
      ((after (.syncCell .a (cellOf 0x80 p)) full).link .a).badRun = 0) := by decide +kernel

/-- No eligible link, one, both, and one whose reply queue is full. -/
theorem witness_AgentAlternatesBetweenLinks :
    let p := requestPayload 1 .describe
    let g := fun a b replies => { live with agent := ⟨a, b, replies, [], .b, some 0⟩ }
    ((g [] [] []).power = .locked ∧ (g [] [] []).agent.interval = some 0 ∧ ¬(g [] [] []).agent.requests .a ≠ []) ∧
    ((g [p] [p] []).agent.requests .a ≠ [] ∧ ((g [p] [p] []).agent.replies .a).length < 8 ∧
      (g [p] [p] []).agent.lastServed = otherSide .a ∧ (g [p] [p] []).agent.requests .a = p :: []) ∧
    ¬((g [p] [] (List.replicate 8 ⟨1, 1, .ok, 0, []⟩)).agent.replies .a).length < 8 ∧
    (rowOf (.describe .a 1) = some (.a, 1, .describe) ∧ (g [p] [] []).agent.requests .a = [requestPayload 1 .describe] ∧
      ¬(g [p] [] []).agent.requests (otherSide .a) ≠ []) := by decide +kernel

theorem witness_RequestsWaitOrAreUnknown :
    let p := requestPayload 1 .describe
    let busy := fun q => { live with agent := { Agent.initial with interval := some 64, requestsA := q } }
    live.Serves .a ∧ (0xFF : Byte) ∉ knownCodes ∧
    ((busy [p, p, p]).power = .locked ∧ (busy [p, p, p]).agent.interval = some 64 ∧
      ((busy [p, p, p]).agent.requests .a).length < 4) ∧
    4 ≤ ((busy [p, p, p, p]).agent.requests .a).length ∧ State.reset.power ≠ .locked ∧
    rowOf (.retune .b 7 3) = some (.b, 7, .slotControl 3 3) ∧ rowOf (.unknownRequest .a 1 0xFF) = some (.a, 1, .unknown 0xFF) ∧
    rowOf .stcTick = none := by decide +kernel

/-- An IDLE Agent with a full reply queue: the request waits alone, the head request of the other link is taken, and a fifth
is discarded. -/
theorem witness_RequestsWaitOrAreUnknown_idle :
    let p := fun tag => requestPayload tag .describe
    let s := fun a b => { live with agent :=
      { Agent.initial with requestsA := a, requestsB := b, repliesA := List.replicate 8 ⟨1, 2, .ok, 0, []⟩ } }
    let arrives := fun u => after (.describe .a 9) u
    let four := [p 1, p 2, p 3, p 4]
    ((s [] []).agent.interval = none ∧ ¬(s [] []).Serves .a ∧ ((s [] []).agent.requests .a).length < 4 ∧
      ¬((s [] []).agent.replies .a).length < 8 ∧ (s [] []).agent.requests .b = []) ∧
    (arrives (s [] [])).agent.requestsA = [p 9] ∧
    ((s [] [p 5]).agent.requests .b ≠ [] ∧ ((s [] [p 5]).agent.replies .b).length < 8 ∧
      (arrives (s [] [p 5])).agent.repliesB.map Reply.tag = [5] ∧ (arrives (s [] [p 5])).agent.requestsA = [p 9]) ∧
    (4 ≤ ((s four []).agent.requests .a).length ∧ (arrives (s four [])).agent.requestsA = four ∧
      (arrives (s four [])).events.latched = flagMask (.reqDiscard .a)) := by decide +kernel

theorem witness_DescribeReturnsThePart : live.Serves .a ∧ live.Serves .b := by decide +kernel

theorem witness_DatapathResetByBlock :
    let s := (live.setEgress .a { running with queues := running.queues.set 0 [buffer 0 0 0 nullPacket] }).setSlot 0 tracking
    s.Serves .a ∧ s.UnitLaw ∧ (s.egress .a).run = .running ∧ (s.egress .b).run ≠ .running := by decide +kernel

/-- A RUNNING egress with a partial cell, and one with a complete cell alone. -/
theorem witness_DatapathResetByBlock_streams :
    let cell : StreamCell := ⟨List.replicate 60 0, 255, false⟩
    let u := (live.setEgress .a { running with assembly := ⟨[1], 0, false⟩ }).setEgress .b { running with txBuffer := [cell] }
    let t := after (.reset .a 1) u
    (u.Serves .a ∧ u.UnitLaw) ∧ t.egressA.txBuffer = [⟨1 :: List.replicate 59 0xFF, 0, true⟩] ∧
    t.egressB.txBuffer = [{ cell with isEnd := true }] := by decide +kernel

/-- The first and the last flag, with and without a change of the summary. -/
theorem witness_LatchMakesAlertsPending :
    let u := { EventUnit.initial with enabled := 1 <<< 44, alertB := true }
    let v := latchEvent (.captureEnd .c1) u
    summary u = false ∧ summary v = true ∧ summary (latchEvent (.acqFailed 0) u) = false ∧
    summary (latchEvent (.captureEnd .c0) v) = true ∧ flagNumber (.acqFailed 0) = 0 ∧
    flagNumber (.captureEnd .c1) = 44 := by decide +kernel

theorem witness_StatusReadsThenClears :
    let s : State := { live with events := { EventUnit.initial with latched := 3, enabled := 1 } }
    s.Serves .a ∧ summary s.events = true ∧ summary (after (.status .a 1 1) s).events = false ∧
    summary (after (.status .a 1 2) s).events = summary s.events ∧ 44 < 45 := by decide +kernel

/-- The last flag of one group and the first of the next, and a flag that is not enabled. -/
theorem test_summary_record :
    let u := fun k : Nat => { EventUnit.initial with latched := 1 <<< k, enabled := 0x1FFFFFFFFFFE }
    [29, 30, 33, 34, 37, 38, 42, 43, 44].map (fun k => summaryRecord (u k)) =
      [0x03, 0x05, 0x05, 0x09, 0x09, 0x11, 0x11, 0x21, 0x21] ∧ summaryRecord (u 0) = 0 := by decide +kernel

theorem witness_AlertConfigReplacesTheEnables :
    let s : State := { live with events := { EventUnit.initial with latched := 3, enabled := 1 } }
    let u : State := { s with events := { s.events with enabled := 4 } }
    s.Serves .a ∧ 1 < (2 : Byte).toNat ∧ (1 : Byte).toNat ≤ 1 ∧
    summary u.events = false ∧ summary (after (.alertConfig .a 1 2 1 1) u).events = true ∧
    summary s.events = true ∧ summary (after (.alertConfig .a 1 4 1 1) s).events = false ∧
    summary (after (.alertConfig .a 1 2 1 1) s).events = summary s.events := by decide +kernel

theorem witness_SnapshotCopiesTheLiveCounters :
    live.Serves .a ∧ 1 < (2 : Byte).toNat ∧ 4 < (5 : Byte).toNat ∧ (4 : Byte).toNat ≤ 4 ∧ live.snapshot.valid = false ∧
    (after (.statsSnapshot .a 1 1) live).snapshot.valid = true ∧
    (after .serviceIntervalEnd { (after (.statsSnapshot .a 1 1) live) with
      agent := { Agent.initial with interval := some 0 } }).Serves .a := by decide +kernel

/-- The parameters that R188's third check accepts. -/
abbrev argsOk (slot : Byte) (pid : BitVec 16) (mode n : Byte) : Prop :=
  slot.toNat < 6 ∧ pid.toNat ≤ 8190 ∧ 1 ≤ mode.toNat ∧ mode.toNat ≤ 3 ∧ (mode = 2 ∨ 1 ≤ n.toNat ∧ n.toNat ≤ 64)

theorem witness_CapturesStartAndCancel_parameters :
    argsOk 0 8190 3 64 ∧ argsOk 5 0 2 0 ∧ ¬argsOk 6 0 1 1 ∧ ¬argsOk 0 8191 1 1 ∧ ¬argsOk 0 0 0 1 ∧ ¬argsOk 0 0 4 1 ∧
    ¬argsOk 0 0 1 65 := by decide

/-- Each check of R188 in its order, and each state of a context. -/
theorem witness_CapturesStartAndCancel :
    let s := withSlot tracking
    let x := fun st => live.setCapture .c1 { CaptureContext.initial with state := st }
    live.Serves .a ∧ 1 < (2 : Byte).toNat ∧
    ((live.capture .c1).state = .idle ∧ (live.slot 0).acq = .off ∧ (0 : Byte).toNat = (0 : SlotId).val) ∧
    (s.Serves .a ∧ (s.capture .c1).state = .idle ∧ (s.slot 0).acq ≠ .off ∧ s.poolCapacity .capture ≠ 0) ∧
    ((x .active).capture .c1).state = .active ∧ ((x .suspended).capture .c1).state = .suspended ∧
    ((x .draining).capture .c1).state = .draining := by decide +kernel

/-- Packets that start a unit, follow, break the count and are damaged; the 64th of a section. -/
theorem witness_CapturesCopyQualifyingPackets :
    let x := startedCapture .a 0 0 .sectionMode 0
    let o := { x with phase := .opened, lastCc := some 8, captured := 63 }
    x.mode = .sectionMode ∧ x.phase = .waiting ∧ o.phase = .opened ∧ min (o.captured + 1) 4294967295 = 64 ∧
    (packetError (packet 0x80 0 0x19) = true ∧ packetError (packet 0x40 0 0x19) = false ∧
      packetUnitStart (packet 0x40 0 0x19) = true ∧ packetUnitStart (packet 0 0 0x19) = false) ∧
    (packetHasPayload (packet 0 0 0x19) = true ∧ packetCc (packet 0 0 0x19) = 8 + 1 ∧ packetCc (packet 0 0 0x1B) ≠ 8 + 1) ∧
    (let k := startedCapture .a 0 0 .count 1
     k.mode ≠ .sectionMode ∧ k.state ≠ .suspended ∧ min (k.captured + 1) 4294967295 = k.count) ∧
    (let k := startedCapture .a 0 0 .continuous 2
     min (k.captured + 1) 4294967295 % k.count ≠ 0 ∧
     min (({ k with captured := 1 } : CaptureContext).captured + 1) 4294967295 % k.count = 0) := by decide +kernel

/-- A state that keeps every table and unit law, with a step that takes a command. -/
theorem witness_StepKeepsTablesAndUnits :
    let s := ({ live with pending := [.stcTick] } : State).setRoute 0 (entry 100)
    s.TablesCanonical ∧ s.UnitLaw ∧ s.pending = [.stcTick] := by decide +kernel

/-- Two valid entries at the first and the last index, with different keys and different output PIDs on egress A. -/
theorem witness_StepKeepsTablesAndUnits_routes :
    let s := ({ live with pending := [.routeClear .a 1] } : State).setRoute 0 (entry 100)
    let u := s.setRoute 255 { entry 101 with outA := some 8190 }
    u.TablesCanonical ∧ u.RouteLaw ∧ (u.route 0).valid = true ∧ (u.route 255).valid = true ∧
    (u.route 255).outPid .a ≠ (u.route 0).outPid .a := by
  refine ⟨by decide +kernel, ⟨by decide +kernel, ?_⟩, by decide +kernel⟩
  intro i j hi hj vi vj
  have only : ∀ k, k < 256 → (((({ live with pending := [.routeClear .a 1] } : State).setRoute 0 (entry 100)).setRoute 255
      { entry 101 with outA := some 8190 }).route k).valid = true → k = 0 ∨ k = 255 := by decide +kernel
  rcases only i hi vi with rfl | rfl
  · omega
  · rcases only j (by omega) vj with rfl | rfl
    · refine ⟨by decide +kernel, fun e => ?_⟩
      cases e <;> decide +kernel
    · omega

/-- Slot 0 enabled on its pair and every other slot claiming none. -/
theorem witness_StepKeepsTheClaims : (withSlot tracking).ClaimLaw :=
  claimLaw_of_slot0 _ (by decide +kernel) (by decide +kernel)

/-- One held buffer, the last of its bank. -/
theorem witness_StepKeepsTheBuffers :
    (live.setEgress .a { running with queues := running.queues.set 0 [buffer 0 127 0 nullPacket] }).BufferLaw := by
  refine ⟨by decide +kernel, by decide +kernel, fun e => ?_, fun c => ?_⟩
  · cases e <;> decide +kernel
  · cases c <;> decide +kernel

end Sys2Proof.Tests
end

section
/-! SUPPORT. The energies of chapter 4 (R69, R70): the total eligible energy splits into the captured energy of a
reference and what the eligible paths outside its span hold, and CapturedEnergyIsBounded is read off that split. -/

namespace Sys2Proof.Machine

open Sys2Proof

theorem mem_eligiblePaths {threshold : Nat} {table : List EchoPath} {p : EchoPath} :
    p ∈ eligiblePaths threshold table ↔ p ∈ table ∧ threshold ≤ p.power := by
  simp [eligiblePaths]

/-! ## The energies as sums over the whole table -/

theorem sum_power_filter (q : EchoPath → Prop) [DecidablePred q] (table : List EchoPath) :
    ((table.filter fun p => decide (q p)).map EchoPath.power).sum =
      (table.map fun p => if q p then p.power else 0).sum := by
  simp [List.sum_map_ite]

theorem totalEnergy_eq_sum_ite (threshold : Nat) (table : List EchoPath) :
    totalEnergy threshold table = (table.map fun p => if threshold ≤ p.power then p.power else 0).sum :=
  sum_power_filter (fun p => threshold ≤ p.power) table

theorem capturedEnergy_eq_sum_ite (threshold : Nat) (span : Int) (table : List EchoPath) (r : Int) :
    capturedEnergy threshold span table r =
      (table.map fun p =>
        if threshold ≤ p.power ∧ r ≤ p.delay ∧ p.delay ≤ r + span then p.power else 0).sum := by
  have both_tests : (eligiblePaths threshold table).filter (fun p => decide (r ≤ p.delay ∧ p.delay ≤ r + span)) =
      table.filter fun p => decide (threshold ≤ p.power ∧ r ≤ p.delay ∧ p.delay ≤ r + span) := by
    rw [eligiblePaths, List.filter_filter]
    exact List.filter_congr fun p _ => by simp [Bool.and_comm, Bool.and_assoc]
  rw [capturedEnergy, both_tests, sum_power_filter]

/-! ## The energy outside the span -/

/-- What the eligible paths outside the span of a reference hold. -/
def uncapturedEnergy (threshold : Nat) (span : Int) (table : List EchoPath) (r : Int) : Nat :=
  (((eligiblePaths threshold table).filter fun p => decide (¬(r ≤ p.delay ∧ p.delay ≤ r + span))).map
    EchoPath.power).sum

theorem capturedEnergy_add_uncapturedEnergy (threshold : Nat) (span : Int) (table : List EchoPath) (r : Int) :
    capturedEnergy threshold span table r + uncapturedEnergy threshold span table r = totalEnergy threshold table :=
  List.sum_map_filter_add_sum_map_filter_not (fun p : EchoPath => r ≤ p.delay ∧ p.delay ≤ r + span)
    EchoPath.power (eligiblePaths threshold table)

/-- With positive powers (R63) nothing is uncaptured only where no eligible path stands outside the span. -/
theorem uncapturedEnergy_eq_zero_iff {threshold : Nat} {span : Int} {table : List EchoPath} {r : Int}
    (positive : ∀ p ∈ table, 0 < p.power) :
    uncapturedEnergy threshold span table r = 0 ↔
      ∀ p ∈ table, threshold ≤ p.power → r ≤ p.delay ∧ p.delay ≤ r + span := by
  simp only [uncapturedEnergy, List.sum_eq_zero_iff, List.forall_mem_map, List.mem_filter, mem_eligiblePaths,
    decide_eq_true_eq]
  constructor
  · intro none_left p hp eligible
    by_contra outside
    exact (positive p hp).ne' (none_left p ⟨⟨hp, eligible⟩, outside⟩)
  · rintro inside p ⟨⟨hp, eligible⟩, outside⟩
    exact absurd (inside p hp eligible) outside

/-! ## Bounds of the captured energy (R70) -/

theorem capturedEnergy_eq_zero {threshold : Nat} {span : Int} {table : List EchoPath} {r : Int}
    (outside : ∀ p ∈ table, threshold ≤ p.power → p.delay < r ∨ r + span < p.delay) :
    capturedEnergy threshold span table r = 0 := by
  have span_empty : (eligiblePaths threshold table).filter
      (fun p => decide (r ≤ p.delay ∧ p.delay ≤ r + span)) = [] := by
    refine List.filter_eq_nil_iff.mpr fun p hp => ?_
    obtain ⟨listed, eligible⟩ := mem_eligiblePaths.mp hp
    have := outside p listed eligible
    simp only [decide_eq_true_eq]
    omega
  rw [capturedEnergy, span_empty, List.map_nil, List.sum_nil]

theorem capturedEnergy_le_totalEnergy (threshold : Nat) (span : Int) (table : List EchoPath) (r : Int) :
    capturedEnergy threshold span table r ≤ totalEnergy threshold table :=
  Nat.le.intro (capturedEnergy_add_uncapturedEnergy threshold span table r)

theorem capturedEnergy_eq_totalEnergy_iff {threshold : Nat} {span : Int} {table : List EchoPath} {r : Int}
    (positive : ∀ p ∈ table, 0 < p.power) :
    capturedEnergy threshold span table r = totalEnergy threshold table ↔
      ∀ p ∈ table, threshold ≤ p.power → r ≤ p.delay ∧ p.delay ≤ r + span := by
  rw [← uncapturedEnergy_eq_zero_iff positive, ← capturedEnergy_add_uncapturedEnergy threshold span table r]
  exact left_eq_add

/-- Settles O23, from the split of the total eligible energy into the captured and the uncaptured part. -/
theorem capturedEnergyIsBounded : Obligations.CapturedEnergyIsBounded := fun threshold span table r =>
  ⟨capturedEnergy_eq_sum_ite threshold span table r, capturedEnergy_eq_zero, totalEnergy_eq_sum_ite threshold table,
    capturedEnergy_le_totalEnergy threshold span table r, capturedEnergy_eq_totalEnergy_iff⟩

end Sys2Proof.Machine
end

section
/-! SUPPORT. Packets completed outside TRACK (R84 to R87, R90): the outcome that the sync byte and the decoder's report
give, what FEC_WAIT and HOLD each do with it, and PacketsBeforeAndAfterTrack put together from the cases. -/

namespace Sys2Proof.Machine

open Sys2Proof

/-! ## The outcome of a packet (R84) -/

theorem packetSyncRight_iff {p : Packet} : packetSyncRight p = true ↔ p[0] = 0x47 := beq_iff_eq

theorem outcomeOf_of_right {p : Packet} (right : p[0] = 0x47) (report : DecoderReport) : outcomeOf report p = report :=
  if_pos (packetSyncRight_iff.mpr right)

theorem outcomeOf_of_wrong {p : Packet} (wrong : p[0] ≠ 0x47) (report : DecoderReport) :
    outcomeOf report p = .uncorrectable :=
  if_neg fun right => wrong (packetSyncRight_iff.mp right)

theorem outcomeOf_eq_uncorrectable {p : Packet} {report : DecoderReport}
    (bad : p[0] ≠ 0x47 ∨ report = .uncorrectable) : outcomeOf report p = .uncorrectable := by
  by_cases right : p[0] = 0x47
  · rw [outcomeOf_of_right right]
    exact bad.resolve_left (not_not_intro right)
  · exact outcomeOf_of_wrong right report

/-! ## A packet completed where the outer decoder runs (R85) -/

theorem exec_packetCompletion_of_decodes {n : SlotId} {s : State} (locked : s.power = .locked)
    (decodes : (s.slot n).acq.decodes = true) (report : DecoderReport) (p : Packet) (first : CtxId) :
    exec (.packetCompletion n report p first) s = .next (s.complete n (outcomeOf report p) p first) := by
  have taken : exec (.packetCompletion n report p first) s = execPacketCompletion n report p first s := rfl
  rw [taken, execPacketCompletion, State.whenDue_of_due _ _ _ locked decodes]

/-! ## A packet completed in FEC_WAIT (R86, R87) -/

theorem Slot.runSync_of_right {p : Packet} (right : p[0] = 0x47) (x : Slot) :
    x.runSync p = { x with syncRun := x.syncRun + 1 } := by
  simp only [Slot.runSync, packetSyncRight_iff.mpr right, if_true]

theorem Slot.runSync_of_wrong {p : Packet} (wrong : p[0] ≠ 0x47) (x : Slot) : x.runSync p = { x with syncRun := 0 } := by
  simp only [Slot.runSync, packetSyncRight_iff, if_neg wrong]

theorem State.completeFecWait_of_wrong {p : Packet} (wrong : p[0] ≠ 0x47) (s : State) (n : SlotId) :
    s.completeFecWait n p = s.setSlot n { s.slot n with syncRun := 0 } := by
  rw [State.completeFecWait, Slot.runSync_of_wrong wrong]
  rfl

/-- The entry to TRACK sets the run back to 0 (R49), so the raise that completed it leaves no trace. -/
theorem State.completeFecWait_of_right {p : Packet} (right : p[0] = 0x47) (s : State) (n : SlotId) :
    s.completeFecWait n p = s.setSlot n
      (if (s.slot n).syncRun = 3 then (s.slot n).enterTrack
       else { s.slot n with syncRun := (s.slot n).syncRun + 1 }) := by
  rw [State.completeFecWait, Slot.runSync_of_right right]
  simp only [Nat.reduceEqDiff]
  rfl

theorem exec_packetCompletion_of_fecWait {n : SlotId} {s : State} (locked : s.power = .locked)
    (waits : (s.slot n).acq = .fecWait) (report : DecoderReport) (p : Packet) (first : CtxId) :
    exec (.packetCompletion n report p first) s = .next (s.completeFecWait n p) := by
  rw [exec_packetCompletion_of_decodes locked (by rw [waits]; rfl), State.complete, waits]

/-! ## A packet completed in HOLD (R86, R90) -/

/-- The slot with a packet of this outcome counted (R88, R90). -/
def Slot.counted (o : DecoderReport) (x : Slot) : Slot := { x with counters := x.counters.countOutcome o }

theorem Slot.runGood_of_good {o : DecoderReport} (good : isUncorrectable o = false) (x : Slot) :
    x.runGood o = { x.counted o with goodRun := x.goodRun + 1 } := by
  simp [Slot.runGood, Slot.counted, good]

theorem State.completeHold_of_uncorrectable (s : State) (n : SlotId) :
    s.completeHold n .uncorrectable = s.setSlot n { (s.slot n).counted .uncorrectable with goodRun := 0 } := rfl

/-- The recovery to TRACK sets the run back to 0 (R49), so the raise that completed it leaves no trace. -/
theorem State.completeHold_of_good {o : DecoderReport} (good : isUncorrectable o = false) (s : State) (n : SlotId) :
    s.completeHold n o = s.setSlot n
      (if (s.slot n).goodRun = 3 then ((s.slot n).counted o).enterTrack
       else { (s.slot n).counted o with goodRun := (s.slot n).goodRun + 1 }) := by
  rw [State.completeHold, Slot.runGood_of_good good]
  simp only [Nat.reduceEqDiff]
  rfl

theorem exec_packetCompletion_of_hold {n : SlotId} {s : State} (locked : s.power = .locked)
    (holds : (s.slot n).acq = .hold) (report : DecoderReport) (p : Packet) (first : CtxId) :
    exec (.packetCompletion n report p first) s = .next (s.completeHold n (outcomeOf report p)) := by
  rw [exec_packetCompletion_of_decodes locked (by rw [holds]; rfl), State.complete, holds]

/-- Settles O28, by the slot's state, the sync byte and the report. -/
theorem packetsBeforeAndAfterTrack : Obligations.PacketsBeforeAndAfterTrack := by
  intro n report p first s locked x tracking result
  have in_fecWait (waits : x.acq = .fecWait) : result = .next (s.completeFecWait n p) :=
    exec_packetCompletion_of_fecWait locked waits report p first
  have in_hold (holds : x.acq = .hold) : result = .next (s.completeHold n (outcomeOf report p)) :=
    exec_packetCompletion_of_hold locked holds report p first
  refine ⟨?wrong_sync, ?run_grows, ?fourth_sync, ?bad_packet, ?clean_packet, ?corrected_packet⟩
  case wrong_sync =>
    intro waits wrong
    rw [in_fecWait waits, State.completeFecWait_of_wrong wrong]
  case run_grows =>
    intro waits right below
    rw [in_fecWait waits, State.completeFecWait_of_right right, if_neg below]
  case fourth_sync =>
    intro waits right third
    rw [in_fecWait waits, State.completeFecWait_of_right right, if_pos third]
    rfl
  case bad_packet =>
    intro holds bad
    rw [in_hold holds, outcomeOf_eq_uncorrectable bad, State.completeHold_of_uncorrectable]
    rfl
  case clean_packet =>
    rintro holds right rfl
    rw [in_hold holds, outcomeOf_of_right right, State.completeHold_of_good rfl]
    rfl
  case corrected_packet =>
    rintro k holds right rfl
    rw [in_hold holds, outcomeOf_of_right right, State.completeHold_of_good rfl]
    rfl

end Sys2Proof.Machine
end

section
/-! SUPPORT. What a qualifying packet does to a capture context (R189 to R191), one lemma for each row: in COUNT and
CONTINUOUS mode, before a section's first packet and within a section; CapturesCopyQualifyingPackets put together from
the rows. -/

namespace Sys2Proof.Machine

open Sys2Proof

section Rows

variable {x : CaptureContext} {p : Packet}

/-! ## The end of a capture, of a round and of a section (R190 to R192) -/

theorem CaptureContext.finish_eq_endedWith (r : EndReason) (x : CaptureContext) : x.finish r = endedWith r x := rfl

theorem CaptureContext.closeRound_of_count (counts : x.mode = .count) :
    x.closeRound = if x.captured = x.count then endedWith .countDone x else x := by
  simp only [CaptureContext.closeRound, counts, CaptureContext.finish_eq_endedWith]

theorem CaptureContext.closeRound_of_continuous (continues : x.mode = .continuous) :
    x.closeRound = if x.captured % x.count = 0 then
      { x with
        round := bump x.round 1
        pending := x.pending ++ [.roundEnd x.captured x.missed (bump x.round 1)] }
    else x := by
  simp only [CaptureContext.closeRound, continues]

/-- A context with a packet of a section copied, before the test for the 64th packet (R190). -/
def CaptureContext.copySection (id : BufferId) (p : Packet) (x : CaptureContext) : CaptureContext :=
  { x.take id p with
    phase := .opened
    lastCc := if packetHasPayload p then some (packetCc p) else x.lastCc }

theorem CaptureContext.takeSection_of_ne {id : BufferId} (room : bump x.captured 1 ≠ 64) :
    x.takeSection id p = x.copySection id p :=
  if_neg room

theorem CaptureContext.takeSection_of_eq {id : BufferId} (full : bump x.captured 1 = 64) :
    x.takeSection id p = endedWith .sectionDone { x.copySection id p with truncated := true } :=
  if_pos full

theorem CaptureContext.breaksCount_iff :
    x.breaksCount p = true ↔ packetHasPayload p = true ∧ ∃ cc, x.lastCc = some cc ∧ packetCc p ≠ cc + 1 := by
  cases last : x.lastCc with
  | none => simp [CaptureContext.breaksCount, last]
  | some cc => simp [CaptureContext.breaksCount, last]

/-! ## COUNT and CONTINUOUS mode (R189) -/

theorem CaptureContext.qualify_of_plain (plain : x.mode ≠ .sectionMode) (granted : Option BufferId) :
    x.qualify granted p =
      if packetError p || x.state == .suspended then x.miss
      else granted.elim { x.miss with state := .suspended } fun id => (x.take id p).closeRound := by
  cases mode : x.mode with
  | sectionMode => exact absurd mode plain
  | count => cases granted <;> simp only [CaptureContext.qualify, mode, Option.elim]
  | continuous => cases granted <;> simp only [CaptureContext.qualify, mode, Option.elim]

theorem CaptureContext.qualify_of_unusable (plain : x.mode ≠ .sectionMode)
    (unusable : packetError p = true ∨ x.state = .suspended) (granted : Option BufferId) :
    x.qualify granted p = x.miss := by
  rw [CaptureContext.qualify_of_plain plain, if_pos (by simpa using unusable)]

theorem CaptureContext.qualify_of_usable (plain : x.mode ≠ .sectionMode) (sound : packetError p = false)
    (active : x.state ≠ .suspended) (granted : Option BufferId) :
    x.qualify granted p =
      granted.elim { x.miss with state := .suspended } fun id => (x.take id p).closeRound := by
  rw [CaptureContext.qualify_of_plain plain, if_neg (by simp [sound, active])]

/-! ## SECTION mode before the first packet (R190) -/

theorem CaptureContext.qualify_waiting_of_unfit (inSection : x.mode = .sectionMode) (waits : x.phase = .waiting)
    (unfit : packetError p = true ∨ packetUnitStart p = false) (granted : Option BufferId) :
    x.qualify granted p = x := by
  have skips : (packetError p || !packetUnitStart p) = true := by simpa using unfit
  simp only [CaptureContext.qualify, inSection, waits, skips, if_true]

theorem CaptureContext.qualify_waiting_none (inSection : x.mode = .sectionMode) (waits : x.phase = .waiting)
    (sound : packetError p = false) (start : packetUnitStart p = true) :
    x.qualify none p = endedWith .gap x := by
  simp [CaptureContext.qualify, inSection, waits, sound, start, CaptureContext.finish_eq_endedWith]

theorem CaptureContext.qualify_waiting_some (inSection : x.mode = .sectionMode) (waits : x.phase = .waiting)
    (sound : packetError p = false) (start : packetUnitStart p = true) (id : BufferId) :
    x.qualify (some id) p = x.takeSection id p := by
  simp [CaptureContext.qualify, inSection, waits, sound, start]

/-! ## SECTION mode within a section (R190) -/

theorem CaptureContext.qualify_opened_of_error (inSection : x.mode = .sectionMode) (opened : x.phase = .opened)
    (error : packetError p = true) (granted : Option BufferId) :
    x.qualify granted p = endedWith .gap x.miss := by
  simp only [CaptureContext.qualify, inSection, opened, error, if_true, CaptureContext.finish_eq_endedWith]

theorem CaptureContext.qualify_opened_of_unitStart (inSection : x.mode = .sectionMode) (opened : x.phase = .opened)
    (sound : packetError p = false) (start : packetUnitStart p = true) (granted : Option BufferId) :
    x.qualify granted p = endedWith .sectionDone x := by
  simp [CaptureContext.qualify, inSection, opened, sound, start, CaptureContext.finish_eq_endedWith]

theorem CaptureContext.qualify_opened_of_break (inSection : x.mode = .sectionMode) (opened : x.phase = .opened)
    (sound : packetError p = false) (inside : packetUnitStart p = false)
    (broken : x.breaksCount p = true ∨ granted = none) :
    x.qualify granted p = endedWith .gap x.miss := by
  rcases broken with breaks | rfl
  · simp [CaptureContext.qualify, inSection, opened, sound, inside, breaks, CaptureContext.finish_eq_endedWith]
  · simp [CaptureContext.qualify, inSection, opened, sound, inside, CaptureContext.finish_eq_endedWith]

theorem CaptureContext.qualify_opened_some (inSection : x.mode = .sectionMode) (opened : x.phase = .opened)
    (sound : packetError p = false) (inside : packetUnitStart p = false) (follows : ¬x.breaksCount p = true)
    (id : BufferId) : x.qualify (some id) p = x.takeSection id p := by
  simp [CaptureContext.qualify, inSection, opened, sound, inside, follows]

/-- Within a section the phase already is the one that a copy sets. -/
theorem CaptureContext.copySection_of_opened (opened : x.phase = .opened) (id : BufferId) (p : Packet) :
    x.copySection id p =
      { x.take id p with lastCc := if packetHasPayload p then some (packetCc p) else x.lastCc } := by
  rw [CaptureContext.copySection, ← opened]
  rfl

end Rows

/-- Settles O56, by the mode, the phase and the outcome of the allocation. -/
theorem capturesCopyQualifyingPackets : Obligations.CapturesCopyQualifyingPackets := by
  intro granted p x y missed captured
  refine ⟨fun plain => ⟨?unusable, ?refused, ?copied⟩, fun inSection waits => ⟨?unfit, ?no_first, ?first⟩,
    fun inSection opened => ⟨?error, ?next_section, ?gap, ?later⟩⟩
  case unusable => exact fun unusable => CaptureContext.qualify_of_unusable plain unusable granted
  case refused =>
    rintro sound active rfl
    exact CaptureContext.qualify_of_usable plain sound active none
  case copied =>
    rintro id sound active rfl taken
    have closes : y = taken.closeRound := CaptureContext.qualify_of_usable plain sound active (some id)
    refine ⟨?_, ?_, ?_, ?_⟩
    · intro counts more
      rw [closes, CaptureContext.closeRound_of_count (x := taken) counts, if_neg more]
    · intro counts last
      rw [closes, CaptureContext.closeRound_of_count (x := taken) counts, if_pos last]
    · intro continues more
      rw [closes, CaptureContext.closeRound_of_continuous (x := taken) continues, if_neg more]
    · intro continues last
      rw [closes, CaptureContext.closeRound_of_continuous (x := taken) continues, if_pos last]
      rfl
  case unfit => exact fun unfit => CaptureContext.qualify_waiting_of_unfit inSection waits unfit granted
  case no_first =>
    rintro sound start rfl
    exact CaptureContext.qualify_waiting_none inSection waits sound start
  case first =>
    rintro id sound start rfl room
    exact (CaptureContext.qualify_waiting_some inSection waits sound start id).trans
      (CaptureContext.takeSection_of_ne room)
  case error => exact fun error => CaptureContext.qualify_opened_of_error inSection opened error granted
  case next_section =>
    exact fun sound start => CaptureContext.qualify_opened_of_unitStart inSection opened sound start granted
  case gap =>
    exact fun sound inside ends => CaptureContext.qualify_opened_of_break inSection opened sound inside
      (ends.imp_left CaptureContext.breaksCount_iff.mpr)
  case later =>
    rintro id sound inside unbroken rfl taken
    have takes : y = x.takeSection id p := CaptureContext.qualify_opened_some inSection opened sound inside
      (mt CaptureContext.breaksCount_iff.mp unbroken) id
    have copied : x.copySection id p = taken := CaptureContext.copySection_of_opened opened id p
    refine ⟨fun room => ?_, fun full => ?_⟩
    · rw [takes, CaptureContext.takeSection_of_ne room, copied]
    · rw [takes, CaptureContext.takeSection_of_eq full, copied]

end Sys2Proof.Machine
end

section
/-! SUPPORT. What a command can do to the slots, the Route Table, the egresses, the captures and the Bank Map, said once:
every command is a run of the moves below, and each law of Safety.lean is kept by each move. -/

namespace Sys2Proof.Machine

open Sys2Proof

/-! ## The moves -/

/-- From x to y a slot keeps its programmed record, and its active record goes with its state: both stay, the slot enters
OFF without one, stays enabled with the same one, or starts an attempt with a copy of the programmed record (R16, R20). -/
abbrev SlotStep (x y : Slot) : Prop :=
  y.programmed = x.programmed ∧
  (y.acq = x.acq ∧ y.active = x.active ∨ y.acq = .off ∧ y.active = none ∨
    y.acq ≠ .off ∧ x.acq ≠ .off ∧ y.active = x.active ∨
    y.acq ≠ .off ∧ y.active = some x.programmed ∧ (x.acq ≠ .off ∨ x.programmed.frequency.isSome = true))

/-- From x to y an egress gains no buffer, keeps its law and keeps its Continuity Table canonical. -/
structure EgressStep (x y : Egress) : Prop where
  buffers : y.buffers.Sublist x.buffers
  law : x.Law → y.Law
  table : Memory.wf (0 : BitVec 4) 8192 x.continuity → Memory.wf (0 : BitVec 4) 8192 y.continuity

/-- From s to t nothing changes of what the laws speak of, but for the links, which keep theirs. -/
structure Beside (s t : State) : Prop where
  slots : t.slots = s.slots
  routes : t.routes = s.routes
  banks : t.banks = s.banks
  egress : ∀ e, t.egress e = s.egress e
  capture : ∀ c, t.capture c = s.capture c
  link : ∀ l, (s.link l).Law → (t.link l).Law

/-- From r to e an entry of the Route Table keeps all but its counters, and may become invalid (R97). -/
abbrev RouteStep (r e : RouteEntry) : Prop :=
  (e.valid = true → r.valid = true) ∧ e = { r with valid := e.valid, hits := e.hits, drops := e.drops }

/-- One move of the part. -/
inductive Move : State → State → Prop
  | beside {s t : State} : Beside s t → Move s t
  | powerOn (s : State) : Move s s.powerOn
  | slots {s : State} (v : Vector Slot 6) : (∀ n : SlotId, SlotStep (s.slot n) v[n]) → Move s { s with slots := v }
  | program {s : State} (p : SlotSetParams) : setBadShape p = none → s.setUnsets p = none → s.setConflict p = none →
      Move s ((maskSlots p.mask).foldl (State.program p) s)
  | route {s : State} (i : Nat) (e : RouteEntry) : i < 256 → RouteStep (s.route i) e → Move s (s.setRoute i e)
  | addRoute (s : State) (d : RouteDesc) : Move s (s.addRoute d).1
  | clearRoutes (s : State) : Move s { s with routes := clearRoutes s.routes }
  | egress {s : State} (e : Side) (x : Egress) : EgressStep (s.egress e) x → Move s (s.setEgress e x)
  | enqueue {s : State} (e : Side) (b : Buffer) : (s.egress e).run = .running →
      s.allocate (egressOwner e) = some b.id → Move s (s.setEgress e ((s.egress e).enqueue b))
  | capture {s : State} (c : CtxId) (x : CaptureContext) : x.buffers.Sublist (s.capture c).buffers →
      Move s (s.setCapture c x)
  | take {s : State} (c : CtxId) (x : CaptureContext) (id : BufferId) : s.allocate .capture = some id →
      x.buffers = (s.capture c).buffers ++ [id] → Move s (s.setCapture c x)
  | bank {s : State} (b : Fin 8) (k : Bank) : s.bankHeld b = 0 ∨ k.owner = s.banks[b].owner → Move s (s.setBank b k)

/-- A run of moves. -/
abbrev Moves : State → State → Prop := Relation.ReflTransGen Move

theorem Move.moves {s t : State} (h : Move s t) : Moves s t := .single h

theorem Beside.moves {s t : State} (h : Beside s t) : Moves s t := .single (.beside h)

/-! ## The gates and what stands beside the laws -/

theorem Beside.of_update {s t : State} (slots : t.slots = s.slots) (routes : t.routes = s.routes)
    (banks : t.banks = s.banks) (egressA : t.egressA = s.egressA) (egressB : t.egressB = s.egressB)
    (capture0 : t.capture0 = s.capture0) (capture1 : t.capture1 = s.capture1)
    (linkA : s.linkA.Law → t.linkA.Law) (linkB : s.linkB.Law → t.linkB.Law) : Beside s t where
  slots := slots
  routes := routes
  banks := banks
  egress e := by cases e <;> assumption
  capture c := by cases c <;> assumption
  link l := by cases l <;> assumption

theorem moves_whenDue {s u : State} {due : Bool} (h : due = true → Moves s u) : Moves s (s.whenDue due u) := by
  unfold State.whenDue
  split
  · next taken => exact h taken.2
  · exact .refl

theorem moves_whenLocked {s u : State} (h : Moves s u) : Moves s (s.whenLocked u) := by
  unfold State.whenLocked
  split
  · exact h
  · exact .refl

theorem moves_setInput (s : State) (i : RfId) (x : RfInput) : Moves s (s.setInput i x) :=
  Beside.moves (.of_update (by simp) (by simp) (by simp) (by simp) (by simp) (by simp) (by simp) (by simp) (by simp))

theorem moves_latch (s : State) (f : EventFlag) : Moves s (s.latch f) :=
  Beside.moves (.of_update rfl rfl rfl rfl rfl rfl rfl id id)

theorem moves_latchIf (s : State) (b : Bool) (f : EventFlag) : Moves s (s.latchIf b f) := by
  cases b
  · exact .refl
  · exact moves_latch s f

theorem moves_setLink {s : State} {l : Side} {k : LinkUnit} (h : (s.link l).Law → k.Law) : Moves s (s.setLink l k) := by
  refine Beside.moves ⟨by simp, by simp, by simp, by simp, by simp, fun m => ?_⟩
  by_cases same : l = m
  · subst same
    simpa using h
  · simp [State.link_setLink, same]

theorem moves_setAgent (s : State) (g : Agent) : Moves s { s with agent := g } :=
  Beside.moves (.of_update rfl rfl rfl rfl rfl rfl rfl id id)

theorem moves_setEvents (s : State) (u : EventUnit) : Moves s { s with events := u } :=
  Beside.moves (.of_update rfl rfl rfl rfl rfl rfl rfl id id)

theorem moves_setAux (s : State) (x : AuxUnit) : Moves s { s with aux := x } :=
  Beside.moves (.of_update rfl rfl rfl rfl rfl rfl rfl id id)

theorem moves_useFree (s : State) (k : Nat) : Moves s (s.useFree k) :=
  Beside.moves (.of_update rfl rfl rfl rfl rfl rfl rfl id id)

/-! ## Slots -/

theorem SlotStep.refl (x : Slot) : SlotStep x x := ⟨rfl, .inl ⟨rfl, rfl⟩⟩

theorem SlotStep.of_enabled {x y : Slot} (programmed : y.programmed = x.programmed) (active : y.active = x.active)
    (was : x.acq ≠ .off) (is : y.acq ≠ .off) : SlotStep x y :=
  ⟨programmed, .inr (.inr (.inl ⟨is, was, active⟩))⟩

theorem SlotStep.of_start {x y : Slot} (programmed : y.programmed = x.programmed) (active : y.active = some x.programmed)
    (is : y.acq ≠ .off) (may : x.acq ≠ .off ∨ x.programmed.frequency.isSome = true) : SlotStep x y :=
  ⟨programmed, .inr (.inr (.inr ⟨is, active, may⟩))⟩

theorem moves_setSlot {s : State} {n : SlotId} {x : Slot} (h : SlotStep (s.slot n) x) : Moves s (s.setSlot n x) := by
  refine (Move.slots (s.slots.set n x) fun m => ?_).moves
  by_cases same : n = m
  · subst same
    simpa using h
  · have other : (s.slots.set n x)[m] = s.slot m := State.slot_setSlot_other s n m x same
    rw [other]
    exact SlotStep.refl _

theorem moves_mapSlots (s : State) (f : Slot → Slot) (h : ∀ x, SlotStep x (f x)) :
    Moves s { s with slots := s.slots.map f } := by
  refine (Move.slots (s.slots.map f) fun n => ?_).moves
  have mapped : (s.slots.map f)[n] = f (s.slot n) := by simp [State.slot]
  rw [mapped]
  exact h _

/-- A failure starts a new attempt or rests; it keeps the slot enabled (R50, R51). -/
theorem slotStep_fail {x : Slot} (r : FailureReason) (enabled : x.acq ≠ .off) : SlotStep x (x.fail r) := by
  by_cases window : r = .windowFail
  · subst window
    rw [Slot.fail_window]
    unfold windowFailed failed
    split
    · exact .of_start rfl rfl (by simp [attemptStarted]) (.inl enabled)
    · exact .of_enabled rfl rfl enabled (by simp [backedOff])
  · rw [Slot.fail_eq r x window]
    unfold failed
    split
    · exact .of_start rfl rfl (by simp [attemptStarted]) (.inl enabled)
    · exact .of_enabled rfl rfl enabled (by simp [backedOff])

theorem slotStep_toOff (x : Slot) : SlotStep x x.toOff := by
  rw [Slot.toOff_eq]
  exact ⟨rfl, .inr (.inl ⟨rfl, rfl⟩)⟩

theorem slotStep_expireHold {x : Slot} (enabled : x.acq ≠ .off) : SlotStep x x.expireHold := by
  unfold Slot.expireHold
  rw [Slot.attemptStart_sync]
  exact .of_start rfl rfl (by simp [attemptStarted]) (.inl enabled)

theorem moves_failAttempt {s : State} {n : SlotId} (r : FailureReason) (enabled : (s.slot n).acq ≠ .off) :
    Moves s (s.failAttempt n r) :=
  (moves_setSlot (slotStep_fail r enabled)).trans (moves_latch _ _)

theorem moves_expireHold {s : State} {n : SlotId} (enabled : (s.slot n).acq ≠ .off) : Moves s (s.expireHold n) :=
  (moves_setSlot (slotStep_expireHold enabled)).trans (moves_latch _ _)

/-! ## Captures and frees -/

theorem CaptureContext.buffers_finish (r : EndReason) (x : CaptureContext) : (x.finish r).buffers = x.buffers := by
  simp [CaptureContext.finish, CaptureContext.buffers, PendingItem.buffers]

theorem CaptureContext.buffers_slotLeft (n : SlotId) (x : CaptureContext) : (x.slotLeft n).buffers = x.buffers := by
  unfold CaptureContext.slotLeft
  split
  · exact x.buffers_finish _
  · rfl

theorem CaptureContext.buffers_resume (x : CaptureContext) : x.resume.buffers = x.buffers := by
  unfold CaptureContext.resume
  split <;> rfl

theorem moves_setCapture {s : State} {c : CtxId} {x : CaptureContext} (h : x.buffers.Sublist (s.capture c).buffers) :
    Moves s (s.setCapture c x) := (Move.capture c x h).moves

/-- Both contexts change, neither gaining a buffer. -/
theorem moves_mapCaptures (s : State) (f : CaptureContext → CaptureContext) (h : ∀ x, (f x).buffers.Sublist x.buffers) :
    Moves s { s with capture0 := f s.capture0, capture1 := f s.capture1 } := by
  have first : Moves s (s.setCapture .c0 (f s.capture0)) := moves_setCapture (h s.capture0)
  exact first.trans (moves_setCapture (s := s.setCapture .c0 (f s.capture0)) (c := .c1) (h s.capture1))

theorem moves_endCaptures (s : State) (n : SlotId) : Moves s (s.endCaptures n) :=
  moves_mapCaptures s (CaptureContext.slotLeft n) fun x => by rw [x.buffers_slotLeft]

theorem moves_resumeCaptures (s : State) : Moves s s.resumeCaptures := by
  unfold State.resumeCaptures
  split
  · exact moves_mapCaptures s CaptureContext.resume fun x => by rw [x.buffers_resume]
  · exact .refl

theorem moves_drainTest (s : State) (b : Fin 8) : Moves s (s.drainTest b) := by
  unfold State.drainTest
  split
  · exact .refl
  · split
    · next empty => exact (Move.bank b _ (.inl empty)).moves
    · exact .refl

theorem moves_drainTests (banks : List (Fin 8)) (s : State) : Moves s (banks.foldl State.drainTest s) := by
  induction banks generalizing s with
  | nil => exact .refl
  | cons b banks ih => exact (moves_drainTest s b).trans (ih _)

theorem moves_afterFree (s : State) (freed : List BufferId) : Moves s (s.afterFree freed) := by
  have drained : Moves s (freed.foldl (fun t id => t.drainTest id.bank) s) := by
    rw [← List.foldl_map (f := BufferId.bank) (g := State.drainTest)]
    exact moves_drainTests _ s
  exact drained.trans (moves_resumeCaptures _)

/-! ## Acquisition -/

theorem moves_leaveTrack {s : State} {n : SlotId} {enter : Slot → Slot} (enabled : (s.slot n).acq ≠ .off)
    (step : ∀ x, (enter x).programmed = x.programmed ∧ (enter x).active = x.active ∧ (enter x).acq ≠ .off) :
    Moves s (s.leaveTrack n enter) := by
  obtain ⟨programmed, active, acq⟩ := step { s.slot n with mer := none, changePending := false, halfMade := none }
  exact (moves_setSlot (.of_enabled programmed active enabled acq)).trans (moves_endCaptures _ n)

theorem enterSignal_step (x : Slot) :
    x.enterSignal.programmed = x.programmed ∧ x.enterSignal.active = x.active ∧ x.enterSignal.acq ≠ .off :=
  ⟨rfl, rfl, by simp [Slot.enterSignal]⟩

theorem enterSync_step (x : Slot) :
    x.enterSync.programmed = x.programmed ∧ x.enterSync.active = x.active ∧ x.enterSync.acq ≠ .off :=
  ⟨rfl, rfl, by simp [Slot.enterSync]⟩

theorem moves_watch {s : State} {n : SlotId} (half : Option SigWord) (enabled : (s.slot n).acq ≠ .off) :
    Moves s (s.watch n half) := by
  unfold State.watch State.superframeBoundary
  have first : Moves s (s.setSlot n { s.slot n with halfMade := half }) := moves_setSlot (.of_enabled rfl rfl enabled enabled)
  split
  · exact first.trans (moves_leaveTrack (by simpa using enabled) enterSignal_step)
  · exact first

theorem moves_announce {s : State} {n : SlotId} (enabled : (s.slot n).acq ≠ .off) : Moves s (s.announce n) :=
  (moves_setSlot (x := { s.slot n with changePending := true }) (.of_enabled rfl rfl enabled enabled)).trans (moves_latchIf _ _ _)

theorem moves_confirmChange {s : State} {n : SlotId} (w : SigWord) (enabled : (s.slot n).acq ≠ .off) :
    Moves s (s.confirmChange n w) := by
  refine (moves_latch s (.paramChange n)).trans (moves_leaveTrack (by simpa using enabled) fun x => ?_)
  split
  · exact enterSignal_step x
  · exact enterSync_step x

theorem acq_announce (s : State) (n : SlotId) : ((s.announce n).slot n).acq = (s.slot n).acq := by
  simp [State.announce]

theorem moves_trackResult {s : State} {n : SlotId} (result : WordResult) (enabled : (s.slot n).acq ≠ .off) :
    Moves s (s.trackResult n result) := by
  have moved : Moves s (s.setSlot n ((s.slot n).advanceFrame result)) := moves_setSlot (.of_enabled rfl rfl enabled enabled)
  have still : ((s.setSlot n ((s.slot n).advanceFrame result)).slot n).acq ≠ .off := by
    simpa [Slot.advanceFrame] using enabled
  refine moved.trans ?_
  unfold State.trackResult
  cases result with
  | good w =>
    dsimp only
    split
    · split
      · exact (moves_announce still).trans (moves_watch none (by rw [acq_announce]; exact still))
      · exact moves_watch none still
    · split
      · exact moves_confirmChange w still
      · exact moves_watch (some w) still
  | bad => exact moves_watch none still
  | uncounted => exact moves_watch none still

theorem rebuild_records (x : Slot) (arrivals : List Arrival) :
    (x.rebuild arrivals).programmed = x.programmed ∧ (x.rebuild arrivals).active = x.active ∧
      (x.rebuild arrivals).acq = x.acq := by
  have frame := Slot.rebuild_frame x arrivals
  dsimp only at frame
  rw [frame]
  exact ⟨rfl, rfl, rfl⟩

theorem moves_rebuildFrame {s : State} {n : SlotId} (arrivals : List Arrival) (pp ep : Nat) :
    Moves s (s.rebuildFrame n arrivals pp ep) := by
  obtain ⟨programmed, active, acq⟩ := rebuild_records (s.slot n) arrivals
  have rebuilt : Moves s (s.setSlot n { (s.slot n).rebuild arrivals with mer := some (merOf pp ep) }) :=
    moves_setSlot ⟨programmed, .inl ⟨acq, active⟩⟩
  exact rebuilt.trans (moves_latchIf _ _ _)

theorem acq_rebuildFrame (s : State) (n : SlotId) (arrivals : List Arrival) (pp ep : Nat) :
    ((s.rebuildFrame n arrivals pp ep).slot n).acq = (s.slot n).acq := by
  simp [State.rebuildFrame, (rebuild_records (s.slot n) arrivals).2.2]

theorem moves_trackFrame {s : State} {n : SlotId} (result : WordResult) (arrivals : List Arrival) (pp ep : Nat)
    (order : FrameOrder) (enabled : (s.slot n).acq ≠ .off) :
    Moves s (s.trackFrame n result arrivals pp ep order) := by
  have rebuilt_first : Moves s ((s.rebuildFrame n arrivals pp ep).trackResult n result) :=
    (moves_rebuildFrame arrivals pp ep).trans (moves_trackResult result (by rw [acq_rebuildFrame]; exact enabled))
  cases order with
  | rebuildFirst => exact rebuilt_first
  | exitFirst => exact rebuilt_first
  | wordFirst =>
    refine (moves_trackResult result enabled).trans ?_
    unfold State.trackFrame
    dsimp only
    unfold State.ifTracking
    split
    · exact moves_rebuildFrame arrivals pp ep
    · exact .refl

theorem moves_countResult {s : State} {n : SlotId} (half : Option SigWord) (enabled : (s.slot n).acq ≠ .off) :
    Moves s (s.countResult n half) := by
  have counted : Moves s (s.setSlot n
      { s.slot n with halfMade := half, phase := .frames (framesLeft (s.slot n).phase - 1) }) :=
    moves_setSlot (.of_enabled rfl rfl enabled enabled)
  unfold State.countResult
  dsimp only
  split
  · exact counted.trans (moves_failAttempt _ (by simpa using enabled))
  · exact counted

theorem acceptWord_step (w : SigWord) (x : Slot) :
    (x.acceptWord w).programmed = x.programmed ∧ (x.acceptWord w).active = x.active ∧ (x.acceptWord w).acq ≠ .off := by
  unfold Slot.acceptWord
  dsimp only
  split
  · split
    · exact ⟨rfl, rfl, by simp [Slot.enterFecWait]⟩
    · exact ⟨rfl, rfl, by simp [Slot.enterWindow]⟩
  · exact ⟨rfl, rfl, by simp [Slot.enterWindow]⟩

theorem moves_signalResult {s : State} {n : SlotId} (result : WordResult) (enabled : (s.slot n).acq ≠ .off) :
    Moves s (s.signalResult n result) := by
  unfold State.signalResult
  cases result with
  | uncounted => exact .refl
  | bad => exact moves_countResult none enabled
  | good w =>
    dsimp only
    split
    · exact (moves_latch s _).trans (moves_failAttempt _ (by simpa using enabled))
    · split
      · exact moves_countResult none enabled
      · split
        · obtain ⟨programmed, active, acq⟩ := acceptWord_step w (s.slot n)
          exact moves_setSlot (.of_enabled programmed active enabled acq)
        · exact moves_countResult (some w) enabled

theorem moves_frameEnd {s : State} {n : SlotId} (result : WordResult) (milliHz : Int) (arrivals : List Arrival)
    (pp ep : Nat) (order : FrameOrder) : Moves s (s.frameEnd n result milliHz arrivals pp ep order) := by
  unfold State.frameEnd
  dsimp only
  have acq : ((s.slot n).followCarrier milliHz).acq = (s.slot n).acq := rfl
  split
  case h_1 signal =>
    have enabled : (s.slot n).acq ≠ .off := by simp [← acq, signal]
    have advanced : Moves s (s.setSlot n (((s.slot n).followCarrier milliHz).advanceInSignal result)) :=
      moves_setSlot (.of_enabled rfl rfl enabled enabled)
    exact advanced.trans (moves_signalResult result (by rw [State.slot_setSlot_same]; exact enabled))
  case h_4 track =>
    have enabled : (s.slot n).acq ≠ .off := by simp [← acq, track]
    have followed : Moves s (s.setSlot n ((s.slot n).followCarrier milliHz)) :=
      moves_setSlot (.of_enabled rfl rfl enabled enabled)
    exact followed.trans
      (moves_trackFrame result arrivals pp ep order (by rw [State.slot_setSlot_same]; exact enabled))
  case h_2 | h_3 => exact moves_setSlot ⟨rfl, .inl ⟨rfl, rfl⟩⟩
  case h_5 => exact moves_setSlot ⟨rfl, .inl ⟨rfl, rfl⟩⟩
  all_goals exact .refl

theorem moves_echoBuild {s : State} {n : SlotId} (arrivals : List Arrival) (enabled : (s.slot n).acq ≠ .off) :
    Moves s (s.echoBuild n arrivals) := by
  unfold State.echoBuild
  dsimp only
  split
  · have emptied : Moves s (s.setSlot n { (s.slot n).build arrivals with trialTimer := none }) :=
      moves_setSlot (.of_enabled rfl rfl enabled enabled)
    exact emptied.trans (moves_failAttempt _ (by rw [State.slot_setSlot_same]; exact enabled))
  · have built : Moves s (s.setSlot n ((s.slot n).build arrivals)) := moves_setSlot (.of_enabled rfl rfl enabled enabled)
    exact built.trans (moves_latchIf _ _ _)

theorem moves_endCount {s : State} {n : SlotId} (enabled : (s.slot n).acq ≠ .off) : Moves s (s.endCount n) := by
  unfold State.endCount
  split
  · exact .refl
  · next c _ =>
    split
    · have passed : Moves s (s.setSlot n ((s.slot n).passTrial c)) :=
        moves_setSlot (.of_enabled rfl rfl enabled (by simp [Slot.passTrial, Slot.enterFecWait]))
      exact passed.trans (moves_latchIf _ _ _)
    · have failed : Moves s (s.setSlot n (s.slot n).failTrial) := moves_setSlot (.of_enabled rfl rfl enabled enabled)
      split
      · exact failed
      · exact failed.trans (moves_failAttempt _ (by rw [State.slot_setSlot_same]; exact enabled))

theorem Slot.acq_of_ranOut {x : Slot} {a : AcqState} (h : x.ranOut a = true) : x.acq = a := by
  simp only [Slot.ranOut, Bool.and_eq_true, beq_iff_eq] at h
  exact h.1

theorem slotStep_endMeasurement {x : Slot} (belowFs : Nat) (enabled : x.acq ≠ .off) :
    SlotStep x (x.endMeasurement belowFs) := by
  unfold Slot.endMeasurement
  dsimp only
  split
  · exact .of_enabled rfl rfl enabled (by simp [Slot.enterSync])
  · exact .of_enabled rfl rfl enabled enabled

/-! ## Delivery -/

theorem moves_countSlot (s : State) (n : SlotId) (f : SlotCounters → SlotCounters) : Moves s (s.countSlot n f) :=
  moves_setSlot ⟨rfl, .inl ⟨rfl, rfl⟩⟩

theorem EgressStep.of_same {x y : Egress} (queues : y.queues = x.queues) (rate : y.rate = x.rate) (acc : y.acc = x.acc)
    (run : y.run = x.run) (assembly : y.assembly = x.assembly) (due : y.dueStamps = x.dueStamps)
    (continuity : y.continuity = x.continuity) : EgressStep x y where
  buffers := by simp [Egress.buffers, queues]
  law := by simp [Egress.Law, queues, rate, acc, run, assembly, due]
  table := by simp [continuity]

theorem moves_setEgress {s : State} {e : Side} {x : Egress} (h : EgressStep (s.egress e) x) :
    Moves s (s.setEgress e x) := (Move.egress e x h).moves

theorem moves_countEgress (s : State) (e : Side) (f : EgressCounters → EgressCounters) : Moves s (s.countEgress e f) :=
  moves_setEgress (.of_same rfl rfl rfl rfl rfl rfl rfl)

theorem State.allocate_of_grant {s : State} {e : Side} {cls : PacketClass} {id : BufferId}
    (h : s.grant e cls = some id) : s.allocate (egressOwner e) = some id := by
  unfold State.grant at h
  split at h
  · exact h
  · simp at h

theorem moves_setRoute {s : State} {i : Nat} {e : RouteEntry} (index : i < 256) (h : RouteStep (s.route i) e) :
    Moves s (s.setRoute i e) := (Move.route i e index h).moves

theorem moves_copyAttempt {s : State} {i : Nat} (index : i < 256) (n : SlotId) (stamp : Stamp) (p : Packet) (e : Side) :
    Moves s (s.copyAttempt i n stamp p e) := by
  unfold State.copyAttempt
  split
  · split
    · next running =>
      split
      · next id granted => exact (Move.enqueue e _ running (State.allocate_of_grant granted)).moves
      · have counted : Moves s (s.setRoute i { s.route i with drops := bump (s.route i).drops 1 }) :=
          moves_setRoute index ⟨id, rfl⟩
        exact (counted.trans (moves_countEgress _ e _)).trans (moves_latch _ _)
    · exact moves_countEgress s e _
  · exact .refl

theorem moves_routePacket (s : State) (n : SlotId) (stamp : Stamp) (p : Packet) : Moves s (s.routePacket n stamp p) := by
  unfold State.routePacket
  split
  · exact moves_countSlot s n _
  · split
    · exact moves_countSlot s n _
    · next i found =>
      have index := State.lookup_lt found
      have hit : Moves s (s.hit i) := moves_setRoute index ⟨id, rfl⟩
      exact (hit.trans (moves_copyAttempt index n stamp p .a)).trans (moves_copyAttempt index n stamp p .b)

theorem CaptureContext.buffers_take (id : BufferId) (p : Packet) (x : CaptureContext) :
    (x.take id p).buffers = x.buffers ++ [id] := by
  simp [CaptureContext.take, CaptureContext.buffers, PendingItem.buffers]

theorem CaptureContext.buffers_closeRound (x : CaptureContext) : x.closeRound.buffers = x.buffers := by
  unfold CaptureContext.closeRound
  split
  · split
    · exact x.buffers_finish _
    · rfl
  · split
    · simp [CaptureContext.buffers, PendingItem.buffers]
    · rfl
  · rfl

theorem CaptureContext.buffers_takeSection (id : BufferId) (p : Packet) (x : CaptureContext) :
    (x.takeSection id p).buffers = x.buffers ++ [id] := by
  have copied : (x.copySection id p).buffers = x.buffers ++ [id] := x.buffers_take id p
  by_cases full : bump x.captured 1 = 64
  · rw [CaptureContext.takeSection_of_eq full, ← CaptureContext.finish_eq_endedWith, CaptureContext.buffers_finish]
    exact copied
  · rw [CaptureContext.takeSection_of_ne full]
    exact copied

/-- A qualifying packet adds the granted buffer to a context, or none. -/
theorem CaptureContext.buffers_qualify (granted : Option BufferId) (p : Packet) (x : CaptureContext) :
    (x.qualify granted p).buffers = x.buffers ∨
      ∃ id, granted = some id ∧ (x.qualify granted p).buffers = x.buffers ++ [id] := by
  have missed : x.miss.buffers = x.buffers := rfl
  unfold CaptureContext.qualify
  split
  · split
    · exact .inl rfl
    · cases granted with
      | none => exact .inl (x.buffers_finish _)
      | some id => exact .inr ⟨id, rfl, x.buffers_takeSection id p⟩
  · split
    · exact .inl (by rw [CaptureContext.buffers_finish, missed])
    · split
      · exact .inl (x.buffers_finish _)
      · split
        · exact .inl (by rw [CaptureContext.buffers_finish, missed])
        · cases granted with
          | none => exact .inl (by rw [CaptureContext.buffers_finish, missed])
          | some id => exact .inr ⟨id, rfl, x.buffers_takeSection id p⟩
  · split
    · exact .inl missed
    · cases granted with
      | none => exact .inl missed
      | some id => exact .inr ⟨id, rfl, by rw [CaptureContext.buffers_closeRound, CaptureContext.buffers_take]⟩

theorem moves_examine (s : State) (n : SlotId) (p : Packet) (c : CtxId) : Moves s (s.examine n p c) := by
  unfold State.examine
  split
  · rcases (s.capture c).buffers_qualify (s.allocate .capture) p with same | ⟨id, granted, taken⟩
    · exact moves_setCapture (by rw [same])
    · exact (Move.take c _ id granted taken).moves
  · exact .refl

theorem moves_deliver (s : State) (n : SlotId) (p : Packet) (first : CtxId) : Moves s (s.deliver n p first) := by
  have routed : Moves s ((s.countSlot n fun c => { c with delivered := bump c.delivered 1 }).routePacket n s.time.stc p) :=
    (moves_countSlot s n _).trans (moves_routePacket _ n _ p)
  exact (routed.trans (moves_examine _ n p first)).trans (moves_examine _ n p _)

theorem withhold_records (o : DecoderReport) (p : Packet) (x : Slot) :
    (x.withhold o p).programmed = x.programmed ∧ (x.withhold o p).active = x.active ∧ (x.withhold o p).acq = x.acq := by
  unfold Slot.withhold
  split <;> exact ⟨rfl, rfl, rfl⟩

theorem moves_enterHold {s : State} {n : SlotId} (enabled : (s.slot n).acq ≠ .off) : Moves s (s.enterHold n) := by
  have held : Moves s ((s.setSlot n (s.slot n).enterHold).endCaptures n) :=
    (moves_setSlot (x := (s.slot n).enterHold) (.of_enabled rfl rfl enabled (by simp [Slot.enterHold]))).trans (moves_endCaptures _ n)
  unfold State.enterHold
  dsimp only
  split
  · exact held.trans (moves_expireHold (by simp [Slot.enterHold]))
  · exact held

theorem moves_completeTrack {s : State} {n : SlotId} (o : DecoderReport) (p : Packet) (first : CtxId)
    (enabled : (s.slot n).acq ≠ .off) : Moves s (s.completeTrack n o p first) := by
  unfold State.completeTrack
  dsimp only
  split
  · obtain ⟨programmed, active, acq⟩ := withhold_records o p ((s.slot n).runTrack o p)
    have still : (((s.slot n).runTrack o p).withhold o p).acq ≠ .off := by rw [acq]; exact enabled
    have counted : Moves s (s.setSlot n (((s.slot n).runTrack o p).withhold o p)) :=
      moves_setSlot (.of_enabled programmed active enabled still)
    exact counted.trans (moves_enterHold (by rw [State.slot_setSlot_same]; exact still))
  · have counted : Moves s (s.setSlot n ((s.slot n).runTrack o p)) := moves_setSlot (.of_enabled rfl rfl enabled enabled)
    split
    · exact counted.trans (moves_deliver _ n _ first)
    · exact counted

theorem moves_complete (s : State) (n : SlotId) (o : DecoderReport) (p : Packet) (first : CtxId) :
    Moves s (s.complete n o p first) := by
  unfold State.complete
  split
  case h_1 waits =>
    have enabled : (s.slot n).acq ≠ .off := by simp [waits]
    refine moves_setSlot ?_
    split
    · exact .of_enabled rfl rfl enabled (by simp [Slot.enterTrack])
    · exact .of_enabled rfl rfl enabled enabled
  case h_2 tracks => exact moves_completeTrack o p first (by simp [tracks])
  case h_3 holds =>
    have enabled : (s.slot n).acq ≠ .off := by simp [holds]
    refine moves_setSlot ?_
    split
    · exact .of_enabled rfl rfl enabled (by simp [Slot.enterTrack])
    · exact .of_enabled rfl rfl enabled enabled
  all_goals exact .refl

end Sys2Proof.Machine
end

section
/-! SUPPORT. The moves of the egresses, the links, the requests and time, and with them of every command and every step. -/

namespace Sys2Proof.Machine

open Sys2Proof

/-! ## Egresses -/

/-- Fewer buffers in each sub-queue are fewer buffers of the egress. -/
theorem Egress.buffers_sublist {x y : Egress} (h : ∀ n : SlotId, (y.queues[n]).Sublist x.queues[n]) :
    y.buffers.Sublist x.buffers := by
  simp only [Egress.buffers, allSlots, List.flatMap_cons, List.flatMap_nil]
  exact ((h 0).map _).append (((h 1).map _).append (((h 2).map _).append (((h 3).map _).append (((h 4).map _).append
    (((h 5).map _).append (List.Sublist.refl _))))))

theorem Egress.queues_set (x : Egress) (n m : SlotId) (q : List Buffer) :
    (x.queues.set n q)[m] = if n = m then q else x.queues[m] := by
  simp only [Fin.getElem_fin, Vector.getElem_set, Fin.ext_iff]

theorem Egress.serve_sublist {x : Egress} {n : SlotId} {b : Buffer} {rest : List Buffer} (h : x.queues[n] = b :: rest)
    (m : SlotId) : (x.queues.set n rest)[m].Sublist x.queues[m] := by
  rw [x.queues_set]
  split
  · next same =>
    subst same
    rw [h]
    exact List.sublist_cons_self b rest
  · exact List.Sublist.refl _

theorem Egress.running_of_queue {x : Egress} (law : x.Law) {n : SlotId} {b : Buffer} {rest : List Buffer}
    (h : x.queues[n] = b :: rest) : x.run = .running := by
  by_contra stopped
  simp [(law.2.2.2 stopped).2 n] at h

theorem EgressStep.trans {x y z : Egress} (h : EgressStep x y) (k : EgressStep y z) : EgressStep x z where
  buffers := k.buffers.trans h.buffers
  law := k.law ∘ h.law
  table := k.table ∘ h.table

/-- A head buffer that leaves its sub-queue. -/
theorem egressStep_serve {x : Egress} {n : SlotId} {b : Buffer} {rest : List Buffer} (h : x.queues[n] = b :: rest) :
    EgressStep x (x.serve n rest) where
  buffers := Egress.buffers_sublist (Egress.serve_sublist h)
  law law := ⟨law.1, law.2.1, law.2.2.1, fun stopped => absurd (Egress.running_of_queue law h) stopped⟩
  table := id

/-- A packet appended while the assembly has room leaves room. -/
theorem egressStep_appendPacket (p : Packet) (x : Egress) (running : x.run = .running) :
    EgressStep x (x.appendPacket p) := by
  have frame : ∀ (bs : List Byte) (y : Egress), ∃ cells cell,
      bs.foldl Egress.packByte y = { y with txBuffer := cells, assembly := cell } := by
    intro bs
    induction bs with
    | nil => exact fun y => ⟨y.txBuffer, y.assembly, rfl⟩
    | cons b bs ih =>
      intro y
      obtain ⟨cells, cell, packed⟩ : ∃ cells cell, y.packByte b = { y with txBuffer := cells, assembly := cell } := by
        unfold Egress.packByte
        split
        · exact ⟨_, _, rfl⟩
        · exact ⟨y.txBuffer, _, rfl⟩
      obtain ⟨cells', cell', rest⟩ := ih (y.packByte b)
      exact ⟨cells', cell', by rw [List.foldl_cons, rest, packed]⟩
  obtain ⟨cells, cell, appended⟩ := frame p.toList x.markStart
  have marked : ∃ a, x.markStart = { x with assembly := a } := by
    unfold Egress.markStart
    split
    · exact ⟨_, rfl⟩
    · exact ⟨x.assembly, rfl⟩
  obtain ⟨a, marked⟩ := marked
  have whole : x.appendPacket p = { x with txBuffer := cells, assembly := cell } := by
    rw [Egress.appendPacket, appended, marked]
  constructor
  · rw [whole]
    exact List.Sublist.refl _
  · intro law
    obtain ⟨_, _, _, _, _, room, _, notEnd⟩ := x.appendPacket_cells p (law.2.2.1 running).1
    obtain ⟨rate, acc, _, quiet⟩ := law
    have kept : ∀ n : SlotId, (x.appendPacket p).queues[n] = x.queues[n] := fun n => by rw [whole]
    refine ⟨by rw [whole]; exact rate, by rw [whole]; exact acc, fun _ => ⟨?_, notEnd⟩, fun stopped => ?_⟩
    · rw [room]
      exact Nat.mod_lt _ (by decide)
    · rw [whole] at stopped
      exact absurd running stopped
  · rw [whole]
    exact id

theorem egressStep_counters (x : Egress) (c : EgressCounters) : EgressStep x { x with counters := c } :=
  .of_same rfl rfl rfl rfl rfl rfl rfl

theorem egressStep_sendNull {x : Egress} (running : x.run = .running) : EgressStep x x.sendNull :=
  (egressStep_appendPacket nullPacket x running).trans (egressStep_counters _ _)

theorem egressStep_renumberTable (b : Buffer) (x : Egress) : EgressStep x (x.renumberTable b) := by
  unfold Egress.renumberTable
  split
  · exact ⟨List.Sublist.refl _, id, fun wf => Memory.wf_write wf _ _ (packetPid b.packet).isLt⟩
  · exact ⟨List.Sublist.refl _, id, id⟩

theorem run_renumberTable (b : Buffer) (x : Egress) : (x.renumberTable b).run = x.run := by
  unfold Egress.renumberTable
  split <;> rfl

theorem egressStep_sendBuffer (td : Stamp) (b : Buffer) {x : Egress} (running : x.run = .running) :
    EgressStep x (x.sendBuffer td b) :=
  ((egressStep_renumberTable b x).trans
    (egressStep_appendPacket (x.outgoing td b) _ (by rw [run_renumberTable]; exact running))).trans
    (egressStep_counters _ _)

/-- A due slot's discards and its packet, while the egress runs (R145). -/
theorem moves_dueSlot (td : Stamp) (e : Side) (fuel : Nat) (s : State) (running : (s.egress e).run = .running) :
    Moves s (State.dueSlot td e fuel s) := by
  induction fuel generalizing s with
  | zero => exact moves_setEgress (egressStep_sendNull running)
  | succ fuel ih =>
    unfold State.dueSlot
    split
    · exact moves_setEgress (egressStep_sendNull running)
    · next n b rest selected =>
      have served := egressStep_serve (Egress.select_spec _ selected)
      split
      · have discarded : Moves s (s.setEgress e ((s.egress e).serve n rest).countStale) :=
          moves_setEgress (served.trans (.of_same rfl rfl rfl rfl rfl rfl rfl))
        exact ((discarded.trans (moves_latch _ _)).trans (moves_afterFree _ _)).trans (ih _ (by simpa [Egress.serve, Egress.countStale] using running))
      · exact (moves_setEgress (served.trans (egressStep_sendBuffer td b running))).trans (moves_afterFree _ _)

theorem moves_takeDue (s : State) (e : Side) (running : (s.egress e).run = .running) : Moves s (s.takeDue e) := by
  unfold State.takeDue
  split
  · exact .refl
  · next td rest due =>
    have taken : Moves s (s.setEgress e { s.egress e with dueStamps := rest }) :=
      moves_setEgress ⟨List.Sublist.refl _, fun law => ⟨law.1, law.2.1, law.2.2.1, fun stopped => absurd running stopped⟩, id⟩
    exact taken.trans (moves_dueSlot td e _ _ (by simpa using running))

theorem run_endStream (x : Egress) : x.endStream.rate = x.rate ∧ x.endStream.acc = x.acc ∧
    x.endStream.continuity = x.continuity := by
  unfold Egress.endStream
  split
  · split <;> exact ⟨rfl, rfl, rfl⟩
  · split <;> exact ⟨rfl, rfl, rfl⟩

theorem egressStep_stop (x : Egress) : EgressStep x x.stop := by
  obtain ⟨rate, acc, continuity⟩ := run_endStream x
  have emptied : ∀ n : SlotId, x.stop.queues[n] = [] := x.stop_spec.2.2.2.1
  refine ⟨Egress.buffers_sublist fun n => by rw [emptied]; exact List.nil_sublist _, fun law => ⟨?_, ?_, ?_, ?_⟩, ?_⟩
  · exact (congrArg (fun r => r = 0 ∨ 2000000 ≤ r ∧ r ≤ 72000000) rate).mpr law.1
  · exact (congrArg (fun a => a < Config.pacerThreshold) acc).mpr law.2.1
  · intro running
    cases running
  · exact fun _ => ⟨rfl, emptied⟩
  · exact (congrArg (Memory.wf (0 : BitVec 4) 8192) continuity).mpr

theorem moves_stopEgress (s : State) (e : Side) : Moves s (s.stopEgress e) := by
  unfold State.stopEgress
  split
  · exact (moves_setEgress (egressStep_stop _)).trans (moves_afterFree _ _)
  · exact .refl

theorem egressStep_begin (x : Egress) : EgressStep x x.begin := by
  refine ⟨List.Sublist.refl _, fun law => ⟨law.1, by simp [Egress.begin], fun _ => ?_, fun notRunning => absurd rfl notRunning⟩,
    fun _ => Memory.wf_nil _ _⟩
  simp [Egress.begin, Assembly.empty]

theorem egressStep_paced {x : Egress} (running : x.run = .running) (acc : Nat) (due : List Stamp)
    (below : x.Law → acc < Config.pacerThreshold) : EgressStep x { x with acc := acc, dueStamps := due } :=
  ⟨List.Sublist.refl _, fun law => ⟨law.1, below law, law.2.2.1, fun stopped => absurd running stopped⟩, id⟩

theorem egressStep_pace (stc : Stamp) (x : Egress) : EgressStep x (x.pace stc) := by
  unfold Egress.pace
  split
  · next running =>
    split
    · next full =>
      refine egressStep_paced running _ _ fun law => ?_
      obtain ⟨rate, acc, _⟩ := law
      simp only [Config.pacerThreshold] at *
      omega
    · next below => exact egressStep_paced running _ x.dueStamps fun _ => lt_of_not_ge below
  · exact ⟨List.Sublist.refl _, id, id⟩

theorem rate_of_badSetting {p : EgressSetParams} (good : badSetting p = none) (present : settingHas p 1 = true) :
    p.rate.toNat = 0 ∨ 2000000 ≤ p.rate.toNat ∧ p.rate.toNat ≤ 72000000 := by
  have inRange : rateInRange p.rate = true := by
    cases inRange : rateInRange p.rate with
    | true => rfl
    | false => simp [badSetting, present, inRange] at good
  simp only [rateInRange, decide_eq_true_eq] at inRange
  exact inRange.imp_left fun zero => by rw [zero]; rfl

theorem egressStep_configure {p : EgressSetParams} (good : badSetting p = none) (x : Egress) :
    EgressStep x (x.configure p) := by
  refine ⟨List.Sublist.refl _, fun law => ⟨?_, law.2.1, law.2.2.1, law.2.2.2⟩, id⟩
  dsimp only [Egress.configure]
  split
  · next present => exact rate_of_badSetting good present
  · exact law.1

/-- A STOPPING egress with nothing left to send enters STOPPED (R142). -/
theorem egressStep_enterStopped (x : Egress) : EgressStep x
    (if x.run = .stopping ∧ x.txBuffer = [] ∧ x.assembly.bytes = [] then { x with run := .stopped } else x) := by
  split
  · next last =>
    refine ⟨List.Sublist.refl _, fun law => ⟨law.1, law.2.1, fun running => (by cases running), fun _ => ?_⟩, id⟩
    exact law.2.2.2 (by rw [last.1]; simp)
  · exact ⟨List.Sublist.refl _, id, id⟩

theorem egressStep_afterCell (rest : List StreamCell) (x : Egress) : EgressStep x (x.afterCell rest) := by
  have moved : ∀ y : Egress, EgressStep y (if y.assembly.isEnd then
      { y with
        txBuffer := y.txBuffer ++ [⟨y.assembly.bytes, y.assembly.startOffset, true⟩]
        assembly := Assembly.empty }
      else y) := by
    intro y
    split
    · refine ⟨List.Sublist.refl _, fun law => ⟨law.1, law.2.1, fun _ => ?_, law.2.2.2⟩, id⟩
      simp [Assembly.empty]
    · exact ⟨List.Sublist.refl _, id, id⟩
  have taken : EgressStep x { x with txBuffer := rest } := .of_same rfl rfl rfl rfl rfl rfl rfl
  exact (taken.trans (moved _)).trans (egressStep_enterStopped _)

/-! ## Requests -/

theorem moves_controlSlots {act : State → SlotId → Status × State} (step : ∀ s n, Moves s (act s n).2) (ns : List SlotId)
    (acted : Byte) (s : State) : Moves s (s.controlSlots act acted ns).state := by
  induction ns generalizing s acted with
  | nil => exact .refl
  | cons n ns ih =>
    have first := step s n
    unfold State.controlSlots
    split
    · next t acts =>
      rw [acts] at first
      exact first.trans (ih _ t)
    · exact .refl

theorem moves_enableSlot (s : State) (n : SlotId) : Moves s (s.enableSlot n).2 := by
  unfold State.enableSlot
  split
  · exact .refl
  · split
    · exact .refl
    · next pair claimed =>
      split
      · exact .refl
      · have frequency : (s.slot n).programmed.frequency.isSome = true := by
          cases set : (s.slot n).programmed.frequency with
          | none => simp [Slot.programmedClaim, TuningRecord.pair, set] at claimed
          | some kHz => rfl
        refine moves_setSlot ?_
        rw [Slot.enable, Slot.startSense_clear]
        exact .of_start rfl rfl (by simp [attemptStarted]) (.inr frequency)

theorem moves_disableSlot (s : State) (n : SlotId) : Moves s (s.disableSlot n).2 := by
  unfold State.disableSlot
  split
  · exact (moves_setSlot (slotStep_toOff _)).trans (moves_endCaptures _ n)
  · exact .refl

theorem moves_retuneSlot (s : State) (n : SlotId) : Moves s (s.retuneSlot n).2 := by
  unfold State.retuneSlot
  split
  · next enabled =>
    have fresh : Moves s (s.setSlot n (s.slot n).freshAttempt) := by
      refine moves_setSlot ?_
      rw [Slot.freshAttempt, Slot.startSense_clear]
      exact .of_start rfl rfl (by simp [attemptStarted]) (.inl (by simpa [Slot.enabled] using enabled))
    dsimp only
    split
    · exact fresh.trans (moves_endCaptures _ n)
    · exact fresh
  · exact .refl

theorem moves_slotControl (s : State) (mask action : Byte) : Moves s (s.slotControl mask action).state := by
  unfold State.slotControl
  split
  · exact .refl
  · split
    · exact moves_controlSlots moves_enableSlot _ _ s
    · split
      · exact moves_controlSlots moves_disableSlot _ _ s
      · split
        · exact moves_controlSlots moves_retuneSlot _ _ s
        · exact .refl

theorem moves_slotSet (s : State) (p : SlotSetParams) : Moves s (s.slotSet p).state := by
  unfold State.slotSet
  split
  · exact .refl
  · next shape =>
    split
    · exact .refl
    · next unsets =>
      split
      · exact .refl
      · next conflict => exact (Move.program p shape unsets conflict).moves

theorem moves_addRoutes (ds : List RouteDesc) (s : State) : Moves s (s.addRoutes ds).1 := by
  induction ds generalizing s with
  | nil => exact .refl
  | cons d ds ih => exact (Move.addRoute s d).moves.trans (ih _)

theorem moves_routeAdd (s : State) (count : Byte) (d0 d1 d2 : RouteDesc) : Moves s (s.routeAdd count d0 d1 d2).state := by
  unfold State.routeAdd
  split
  · exact moves_addRoutes _ s
  · exact .refl

theorem moves_removeRoutes (ks : List RouteKey) (s : State) : Moves s (s.removeRoutes ks).1 := by
  induction ks generalizing s with
  | nil => exact .refl
  | cons k ks ih =>
    have first : Moves s (s.removeRoute k).1 := by
      unfold State.removeRoute
      split
      · next i found => exact moves_setRoute (State.lookup_lt found) ⟨fun h => (by cases h), rfl⟩
      · exact .refl
    exact first.trans (ih _)

theorem moves_routeRemove (s : State) (count : Byte) (keys : Vector RouteKey 8) :
    Moves s (s.routeRemove count keys).state := by
  unfold State.routeRemove
  split
  · exact moves_removeRoutes _ s
  · exact .refl

theorem moves_setBank {s : State} {b : Fin 8} {k : Bank} (h : s.bankHeld b = 0 ∨ k.owner = s.banks[b].owner) :
    Moves s (s.setBank b k) := (Move.bank b k h).moves

theorem moves_bankAssign (s : State) (bank owner : Byte) : Moves s (s.bankAssign bank owner).state := by
  unfold State.bankAssign
  split
  · exact moves_useFree s 2
  · next b _ =>
    split
    · exact .refl
    · next o _ =>
      have assigned : Moves s (s.assignBank b o).2 := by
        unfold State.assignBank
        split
        · exact .refl
        · split
          · exact .refl
          · split
            · next empty => exact (moves_setBank (.inl empty)).trans (moves_resumeCaptures _)
            · exact moves_setBank (.inr rfl)
      exact assigned

theorem moves_egressSet (s : State) (p : EgressSetParams) : Moves s (s.egressSet p).state := by
  unfold State.egressSet
  split
  · exact .refl
  · split
    · exact .refl
    · split
      · exact .refl
      · next good =>
        split
        · exact .refl
        · exact moves_setEgress (egressStep_configure good _)

theorem moves_egressControl (s : State) (egress action : Byte) : Moves s (s.egressControl egress action).state := by
  unfold State.egressControl
  split
  · exact moves_useFree s 1
  · next e _ =>
    split
    · have started : Moves s (s.startEgress e).2 := by
        unfold State.startEgress
        split
        · exact .refl
        · exact .refl
        · split
          · exact .refl
          · exact moves_setEgress (egressStep_begin _)
      exact started
    · split
      · exact moves_stopEgress s e
      · exact .refl

theorem moves_egressRead (s : State) (egress page : Byte) (pid : BitVec 16) :
    Moves s (s.egressRead egress page pid).state := by
  unfold State.egressRead
  split
  · exact .refl
  · next e _ =>
    split
    · show Moves s (if (s.egress e).assembly.isEnd then s.useFree 1 else s)
      split
      · exact moves_useFree s 1
      · exact .refl
    · split
      · exact .refl
      · split
        · exact .refl
        · split <;> exact .refl

theorem moves_captureStart (s : State) (l : Side) (context slot : Byte) (pid : BitVec 16) (mode n : Byte) :
    Moves s (s.captureStart l context slot pid mode n).state := by
  unfold State.captureStart
  split
  · exact .refl
  · split
    · exact .refl
    · split
      · exact .refl
      · split
        · exact .refl
        · exact moves_setCapture (List.nil_sublist _)

theorem moves_captureCancel (s : State) (context : Byte) : Moves s (s.captureCancel context).state := by
  unfold State.captureCancel
  split
  · exact moves_useFree s 3
  · split
    · exact moves_setCapture (by rw [CaptureContext.buffers_finish])
    · exact .refl

theorem moves_zeroCounters (s : State) : Moves s s.zeroCounters := by
  have slots : Moves s { s with slots := s.slots.map fun x => { x with counters := SlotCounters.zero } } :=
    moves_mapSlots s _ fun x => ⟨rfl, .inl ⟨rfl, rfl⟩⟩
  have egressA (t : State) : Moves t (t.countEgress .a fun _ => EgressCounters.zero) := moves_countEgress t .a _
  have egressB (t : State) : Moves t (t.countEgress .b fun _ => EgressCounters.zero) := moves_countEgress t .b _
  refine ((slots.trans (egressA _)).trans (egressB _)).trans ?_
  exact Beside.moves (.of_update rfl rfl rfl rfl rfl rfl rfl id id)

theorem moves_statsSnapshot (s : State) (clear : Byte) : Moves s (s.statsSnapshot clear).state := by
  have taken : Moves s s.takeSnapshot := Beside.moves (.of_update rfl rfl rfl rfl rfl rfl rfl id id)
  unfold State.statsSnapshot
  split
  · exact .refl
  · next c _ =>
    cases c
    · exact taken
    · exact taken.trans (moves_zeroCounters _)

theorem slotStep_datapathReset (x : Slot) : SlotStep x x.datapathReset := by
  rw [Slot.datapathReset, Slot.toOff_eq]
  exact ⟨rfl, .inr (.inl ⟨rfl, rfl⟩)⟩

theorem moves_clearRecords (s : State) : Moves s s.clearRecords :=
  Beside.moves (.of_update rfl rfl rfl rfl rfl rfl rfl id id)

theorem moves_datapathReset (s : State) : Moves s s.datapathReset := by
  have slotsOff : Moves s { s with slots := s.slots.map Slot.datapathReset } :=
    moves_mapSlots s Slot.datapathReset slotStep_datapathReset
  have quiet : Moves s s.quiet :=
    slotsOff.trans (moves_mapCaptures _ CaptureContext.datapathReset fun x => List.nil_sublist _)
  have stopped : Moves s ((s.quiet.stopEgress .a).stopEgress .b) :=
    (quiet.trans (moves_stopEgress _ .a)).trans (moves_stopEgress _ .b)
  have drained : Moves s ((s.quiet.stopEgress .a).stopEgress .b).drainAll := stopped.trans (moves_drainTests allBanks _)
  exact (drained.trans (moves_zeroCounters _)).trans (moves_clearRecords _)

theorem moves_applyRequest (s : State) (l : Side) (r : Request) : Moves s (s.applyRequest l r).state := by
  cases r with
  | reset => exact moves_datapathReset s
  | status clear => exact moves_setEvents s _
  | alertConfig enable a b =>
    show Moves s (s.alertConfig enable a b).state
    unfold State.alertConfig
    split
    · exact moves_setEvents s _
    · exact .refl
  | statsSnapshot clear => exact moves_statsSnapshot s clear
  | statsRead page =>
    show Moves s (s.statsRead page).state
    unfold State.statsRead
    split
    · exact .refl
    · split <;> exact .refl
  | auxSet m0 m1 protection =>
    show Moves s (s.auxSet m0 m1 protection).state
    unfold State.auxSet
    split
    · exact moves_setAux s _
    · exact .refl
  | auxWrite mask v0 v1 =>
    show Moves s (s.auxWrite mask v0 v1).state
    unfold State.auxWrite
    split
    · exact moves_setAux s _
    · exact .refl
  | slotSet p => exact moves_slotSet s p
  | slotControl mask action => exact moves_slotControl s mask action
  | slotRead slot page =>
    show Moves s (s.slotRead slot page).state
    unfold State.slotRead
    split
    · exact .refl
    · split <;> exact .refl
  | routeAdd count d0 d1 d2 => exact moves_routeAdd s count d0 d1 d2
  | routeRemove count keys => exact moves_routeRemove s count keys
  | routeClear => exact (Move.clearRoutes s).moves
  | bankAssign bank owner => exact moves_bankAssign s bank owner
  | egressSet p => exact moves_egressSet s p
  | egressControl egress action => exact moves_egressControl s egress action
  | egressRead egress page pid => exact moves_egressRead s egress page pid
  | captureStart context slot pid mode n => exact moves_captureStart s l context slot pid mode n
  | captureCancel context => exact moves_captureCancel s context
  | describe | frontRead | auxRead | routeRead _ | bankRead | unknown _ => exact .refl

theorem moves_serve (s : State) (l : Side) (tag code : Byte) (r : Request) : Moves s (s.serve l tag code r) :=
  (moves_applyRequest s l r).trans (moves_setAgent _ _)

theorem moves_agentPoll (s : State) : Moves s s.agentPoll := by
  unfold State.agentPoll
  split
  · exact .refl
  · split
    · next l _ =>
      unfold State.serveHead
      split
      · exact .refl
      · exact (moves_setAgent s _).trans (moves_serve _ _ _ _ _)
    · exact .refl

theorem moves_request (s : State) (l : Side) (tag code : Byte) (r : Request) (payload : List Byte) :
    Moves s (s.request l tag code r payload) := by
  unfold State.request
  split
  · exact moves_serve s l tag code r
  · split
    · exact (moves_setAgent s _).trans (moves_agentPoll _)
    · have counted : Moves s (s.setLink l { s.link l with
          counters := { (s.link l).counters with requestDiscards := bump (s.link l).counters.requestDiscards 1 } }) :=
        moves_setLink id
      exact counted.trans (moves_latch _ _)

theorem moves_requestRow (s : State) (l : Side) (tag : Byte) (r : Request) : Moves s (s.requestRow l tag r) :=
  moves_whenLocked (moves_request s l tag (requestCode r) r (requestPayload tag r))

/-! ## Links -/

theorem moves_captureSent (s : State) (c : CtxId) : Moves s (s.captureSent c) := by
  unfold State.captureSent
  dsimp only
  split
  · exact .refl
  · next id index p rest head =>
    have fewer : (rest.flatMap PendingItem.buffers).Sublist (s.capture c).buffers := by
      rw [CaptureContext.buffers, head]
      exact List.sublist_append_right _ _
    split
    · exact (moves_setCapture (x := { s.capture c with pending := rest, headFragment := 0 }) fewer).trans
        (moves_afterFree _ _)
    · exact moves_setCapture (List.Sublist.refl _)
  · next captured missed round rest head =>
    have same : (rest.flatMap PendingItem.buffers).Sublist (s.capture c).buffers := by
      rw [CaptureContext.buffers, head]
      exact List.sublist_append_right _ _
    exact (moves_setCapture (x := { s.capture c with pending := rest }) same).trans (moves_latch _ _)
  · next r captured missed round truncated rest head =>
    have same : (rest.flatMap PendingItem.buffers).Sublist (s.capture c).buffers := by
      rw [CaptureContext.buffers, head]
      exact List.sublist_append_right _ _
    exact (moves_setCapture (x := { s.capture c with pending := rest, state := .idle }) same).trans (moves_latch _ _)

theorem moves_send (s : State) (l : Side) (kind flags : BitVec 4) (b1 : Byte) (payload : List Byte) :
    Moves s (s.send l kind flags b1 payload) := moves_setLink id

theorem moves_arbitrate (s : State) (l : Side) : Moves s (s.arbitrate l) := by
  unfold State.arbitrate
  split
  · next c rest _ =>
    exact (moves_setEgress (egressStep_afterCell rest (s.egress l))).trans (moves_send _ _ _ _ _ _)
  · split
    · exact (moves_setEvents s _).trans (moves_send _ _ _ _ _ _)
    · split
      · exact ((moves_setAgent s _).trans (moves_send _ _ _ _ _ _)).trans (moves_agentPoll _)
      · split
        · next c _ =>
          have pointed : Moves s (s.setLink l { s.link l with capturePointer := c }) := moves_setLink id
          exact (pointed.trans (moves_send _ _ _ _ _ _)).trans (moves_captureSent _ c)
        · exact moves_setLink id

theorem LinkUnit.law_foundHeader {k : LinkUnit} (law : k.Law) : k.foundHeader.Law := by
  obtain ⟨_, _, _, badRun⟩ := law
  simp [LinkUnit.foundHeader, LinkUnit.Law, badRun]

theorem LinkUnit.law_presyncFail {k : LinkUnit} (law : k.Law) : k.presyncFail.Law := by
  obtain ⟨_, _, _, badRun⟩ := law
  simp [LinkUnit.presyncFail, LinkUnit.Law, badRun]

theorem LinkUnit.law_presyncPass {k : LinkUnit} (presync : k.delin = .presync) (law : k.Law) : k.presyncPass.Law := by
  obtain ⟨boundary, _, goodRun, badRun⟩ := law
  have below := goodRun presync
  unfold LinkUnit.presyncPass
  split
  · simpa [LinkUnit.Law, presync] using boundary
  · refine ⟨boundary, ?_, fun _ => ?_, badRun⟩ <;> dsimp only <;> omega

theorem LinkUnit.law_countFailure {k : LinkUnit} (law : k.Law) : k.countFailure.Law := by
  obtain ⟨boundary, goodRun, presync, badRun⟩ := law
  unfold LinkUnit.countFailure
  dsimp only
  split
  · simp [LinkUnit.Law, goodRun]
  · exact ⟨boundary, goodRun, presync, by dsimp only; omega⟩

theorem LinkUnit.law_loseSignal {k : LinkUnit} (law : k.Law) : k.loseSignal.Law := by
  unfold LinkUnit.loseSignal
  dsimp only
  split
  · exact LinkUnit.law_presyncFail (k := { k with signal := false, lossTicks := 0 }) law
  · exact law

theorem LinkUnit.law_tick (positionBegins : Bool) {k : LinkUnit} (law : k.Law) : (k.tick positionBegins).Law := by
  unfold LinkUnit.tick
  dsimp only
  split
  · split <;> exact law
  · exact law

theorem moves_failHeader (s : State) (l : Side) : Moves s (s.failHeader l) :=
  (moves_setLink LinkUnit.law_countFailure).trans (moves_latchIf _ _ _)

theorem LinkUnit.delin_of_receives {k : LinkUnit} {d : Delineation} (h : k.receives d = true) : k.delin = d := by
  simp only [LinkUnit.receives, Bool.and_eq_true, beq_iff_eq] at h
  exact h.2

theorem moves_syncCell (s : State) (l : Side) (cell : CellBytes) : Moves s (s.syncCell l cell) := by
  unfold State.syncCell
  split
  · have passed : Moves s (s.setLink l (s.link l).passed) :=
      moves_setLink fun law => ⟨law.1, law.2.1, law.2.2.1, Nat.zero_le _⟩
    refine passed.trans ?_
    unfold State.handleCell
    split
    · exact moves_request _ _ _ _ _ _
    · split
      · exact .refl
      · exact moves_setLink id
  · exact moves_failHeader s l

/-! ## Time -/

theorem moves_tick (s : State) : Moves s s.tick := by
  have slots : Moves s { s with slots := s.slots.map Slot.tick } := moves_mapSlots s _ fun x => ⟨rfl, .inl ⟨rfl, rfl⟩⟩
  have egressA (t : State) : Moves t (t.setEgress .a (t.egressA.pace (s.time.stc + 1))) :=
    moves_setEgress (egressStep_pace _ _)
  have egressB (t : State) : Moves t (t.setEgress .b (t.egressB.pace (s.time.stc + 1))) :=
    moves_setEgress (egressStep_pace _ _)
  refine ((slots.trans (egressA _)).trans (egressB _)).trans ?_
  exact Beside.moves (.of_update rfl rfl rfl rfl rfl rfl rfl (LinkUnit.law_tick _) (LinkUnit.law_tick _))

/-! ## Every command and every step -/

/-- A command that is a request row is a run of moves. -/
theorem exec_moves_of_row {c : Instr} {l : Side} {tag : Byte} {r : Request} {s t : State}
    (row : exec c s = .next (s.requestRow l tag r)) (h : exec c s = .next t) : Moves s t := by
  rw [row] at h
  cases h
  exact moves_requestRow s l tag r

theorem exec_moves (c : Instr) {s t : State} (h : exec c s = .next t) : Moves s t := by
  cases c with
  | powerOnReset =>
    cases h
    exact (Move.powerOn s).moves
  | resetRelease strap =>
    obtain rfl := Host.Outcome.next.inj h
    split
    · exact Beside.moves (.of_update rfl rfl rfl rfl rfl rfl rfl id id)
    · exact .refl
  | pllLock =>
    obtain rfl := Host.Outcome.next.inj h
    split
    · exact Beside.moves (.of_update rfl rfl rfl rfl rfl rfl rfl id id)
    · exact .refl
  | gainEvaluation i belowFs =>
    obtain rfl := Host.Outcome.next.inj h
    exact moves_whenDue fun _ => (moves_setInput s i _).trans (moves_latchIf _ _ _)
  | clipIntervalEnd i =>
    obtain rfl := Host.Outcome.next.inj h
    exact moves_whenDue fun _ => moves_setInput s i _
  | overload i =>
    obtain rfl := Host.Outcome.next.inj h
    exact moves_whenDue fun _ => ((moves_setInput s i _).trans (moves_latch _ _)).trans (moves_latchIf _ _ _)
  | overloadHoldExpiry i =>
    obtain rfl := Host.Outcome.next.inj h
    exact moves_whenDue fun _ => moves_setInput s i _
  | clippedSample i =>
    obtain rfl := Host.Outcome.next.inj h
    exact moves_whenLocked (moves_setInput s i _)
  | aux1LevelChange aux1 aux0 =>
    obtain rfl := Host.Outcome.next.inj h
    exact moves_setAux s _
  | mastProtectionTrip =>
    obtain rfl := Host.Outcome.next.inj h
    exact moves_whenDue fun _ => (moves_setAux s _).trans (moves_latch _ _)
  | senseMeasurementEnd n belowFs =>
    obtain rfl := Host.Outcome.next.inj h
    refine moves_whenDue fun due => ?_
    rw [Bool.and_eq_true] at due
    exact moves_setSlot (slotStep_endMeasurement belowFs (by simp [Slot.acq_of_ranOut due.1]))
  | senseWaitEnd n =>
    obtain rfl := Host.Outcome.next.inj h
    exact moves_whenDue fun _ => moves_setSlot ⟨rfl, .inl ⟨rfl, rfl⟩⟩
  | syncStructureFound n m g milliHz =>
    obtain rfl := Host.Outcome.next.inj h
    refine moves_whenDue fun due => ?_
    simp only [Bool.and_eq_true, beq_iff_eq] at due
    exact moves_setSlot (.of_enabled rfl rfl (by simp [due.1.1]) (by simp [Slot.findStructure, Slot.enterSignal]))
  | syncTimeout n =>
    obtain rfl := Host.Outcome.next.inj h
    exact moves_whenDue fun due => moves_failAttempt _ (by simp [Slot.acq_of_ranOut due])
  | signallingFrameEnd n result milliHz arrivals pp ep order =>
    obtain rfl := Host.Outcome.next.inj h
    exact moves_whenDue fun _ => moves_frameEnd result milliHz arrivals pp ep order
  | signalTimeout n =>
    obtain rfl := Host.Outcome.next.inj h
    refine moves_whenDue fun due => ?_
    simp only [Bool.and_eq_true, beq_iff_eq] at due
    exact moves_failAttempt _ (by simp [due.1])
  | windowMoveApplied n =>
    obtain rfl := Host.Outcome.next.inj h
    exact moves_whenDue fun _ => moves_setSlot ⟨rfl, .inl ⟨rfl, rfl⟩⟩
  | echoTableBuild n arrivals =>
    obtain rfl := Host.Outcome.next.inj h
    refine moves_whenDue fun due => ?_
    simp only [Bool.and_eq_true, beq_iff_eq] at due
    exact moves_echoBuild arrivals (by simp [due.1])
  | settleHalfEnd n =>
    obtain rfl := Host.Outcome.next.inj h
    exact moves_whenDue fun _ => moves_setSlot ⟨rfl, .inl ⟨rfl, rfl⟩⟩
  | countHalfSymbolEnd n errors begun =>
    obtain rfl := Host.Outcome.next.inj h
    refine moves_whenDue fun _ => moves_setSlot ?_
    unfold Slot.countSymbol
    split
    · exact SlotStep.refl _
    · exact ⟨rfl, .inl ⟨rfl, rfl⟩⟩
  | countHalfEnd n =>
    obtain rfl := Host.Outcome.next.inj h
    refine moves_whenDue fun due => ?_
    simp only [Bool.and_eq_true, beq_iff_eq] at due
    exact moves_endCount (by simp [due.1.1])
  | packetCompletion n report p first =>
    obtain rfl := Host.Outcome.next.inj h
    exact moves_whenDue fun _ => moves_complete s n _ p first
  | fecTimeout n =>
    obtain rfl := Host.Outcome.next.inj h
    exact moves_whenDue fun due => moves_failAttempt _ (by simp [Slot.acq_of_ranOut due])
  | holdExpiry n =>
    obtain rfl := Host.Outcome.next.inj h
    exact moves_whenDue fun due => moves_expireHold (by simp [Slot.acq_of_ranOut due])
  | backoffEnd n =>
    obtain rfl := Host.Outcome.next.inj h
    refine moves_whenDue fun due => moves_setSlot ?_
    rw [Slot.startSense_clear]
    exact .of_start rfl rfl (by simp [attemptStarted]) (.inl (by simp [Slot.acq_of_ranOut due]))
  | dueSlot e =>
    obtain rfl := Host.Outcome.next.inj h
    refine moves_whenDue fun due => ?_
    simp only [Bool.and_eq_true, beq_iff_eq] at due
    exact moves_takeDue s e due.1
  | cellPosition l =>
    obtain rfl := Host.Outcome.next.inj h
    have begun : Moves s (s.beginPosition l) := moves_setLink id
    exact moves_whenDue fun _ => begun.trans (moves_arbitrate _ l)
  | huntWindow l header =>
    obtain rfl := Host.Outcome.next.inj h
    exact moves_whenDue fun _ => moves_setLink LinkUnit.law_foundHeader
  | presyncHeader l header =>
    obtain rfl := Host.Outcome.next.inj h
    refine moves_whenDue fun due => moves_setLink fun law => ?_
    split
    · exact LinkUnit.law_presyncPass (LinkUnit.delin_of_receives due) law
    · exact LinkUnit.law_presyncFail law
  | syncCell l cell =>
    obtain rfl := Host.Outcome.next.inj h
    exact moves_whenDue fun _ => moves_syncCell s l cell
  | lossOfSignal l =>
    obtain rfl := Host.Outcome.next.inj h
    split
    · exact moves_setLink LinkUnit.law_loseSignal
    · exact .refl
  | lossFailureCount l =>
    obtain rfl := Host.Outcome.next.inj h
    have counted : Moves s (s.setLink l { s.link l with lossDue := (s.link l).lossDue - 1 }) := moves_setLink id
    exact moves_whenDue fun _ => counted.trans (moves_failHeader _ l)
  | signalReturn l =>
    obtain rfl := Host.Outcome.next.inj h
    exact moves_setLink id
  | serviceIntervalEnd =>
    obtain rfl := Host.Outcome.next.inj h
    exact moves_whenDue fun _ => (moves_setAgent s _).trans (moves_agentPoll _)
  | unknownRequest l tag code =>
    obtain rfl := Host.Outcome.next.inj h
    exact moves_whenLocked (moves_request _ _ _ _ _ _)
  | stcTick =>
    obtain rfl := Host.Outcome.next.inj h
    exact moves_whenLocked (moves_tick s)
  | frontRead | auxSet | auxWrite | auxRead | slotSet | enable | disable | retune | slotRead | routeAdd | routeRemove
  | routeClear | routeRead | bankAssign | bankRead | egressSet | start | stop | egressRead | describe | reset | status
  | alertConfig | statsSnapshot | statsRead | captureStart | captureCancel => exact exec_moves_of_row rfl h

theorem step_moves {s t : State} (h : step s = .next t) : Moves s t := by
  unfold step at h
  split at h
  · cases h
    exact .refl
  · next c rest _ =>
    have taken : Moves s { s with pending := rest } := Beside.moves (.of_update rfl rfl rfl rfl rfl rfl rfl id id)
    exact taken.trans (exec_moves c h)

/-- A property that every move keeps is kept by every step. -/
theorem step_keeps {P : State → Prop} (kept : ∀ s t, Move s t → P s → P t) {s t : State} (h : step s = .next t)
    (start : P s) : P t := by
  have run := step_moves h
  clear h
  induction run with
  | refl => exact start
  | tail _ move ih => exact kept _ _ move ih

end Sys2Proof.Machine
end

section
/-! SUPPORT. The laws of Safety.lean in the power-on state and along every move: the canonical tables and the units, the
Route Table, the claims. -/

namespace Sys2Proof.Machine

open Sys2Proof

/-! ## The power-on state -/

theorem tablesCanonical_powerOn (s : State) : s.powerOn.TablesCanonical :=
  ⟨Memory.wf_nil _ _, Memory.wf_nil _ _, Memory.wf_nil _ _⟩

theorem egressLaw_initial : Egress.initial.Law :=
  ⟨.inl rfl, by simp [Egress.initial], fun running => (by cases running),
    fun _ => ⟨rfl, fun n => by simp [Egress.initial]⟩⟩

theorem linkLaw_initial (signal : Bool) : LinkUnit.Law { LinkUnit.initial with signal := signal } := by
  simp [LinkUnit.initial, LinkUnit.Law]

theorem unitLaw_powerOn (s : State) : s.powerOn.UnitLaw :=
  ⟨linkLaw_initial _, linkLaw_initial _, egressLaw_initial, egressLaw_initial⟩

theorem valid_powerOn (s : State) (i : Nat) : (s.powerOn.route i).valid = false := rfl

theorem routeLaw_powerOn (s : State) : s.powerOn.RouteLaw := by
  refine ⟨fun i _ valid => ?_, fun i j _ _ valid _ => ?_⟩ <;> cases valid

theorem slot_powerOn (s : State) (n : SlotId) : s.powerOn.slot n = Slot.initial := by
  simp [State.slot, State.powerOn, State.reset]

theorem not_claims_initial (pair : RfId × Nat) : ¬Slot.initial.claims pair := by
  simp [Slot.claims, Slot.programmedClaim, Slot.activeClaim, Slot.initial, TuningRecord.initial, TuningRecord.pair,
    Slot.enabled]

theorem claimLaw_powerOn (s : State) : s.powerOn.ClaimLaw := by
  simp only [State.ClaimLaw, slot_powerOn]
  exact ⟨fun _ => ⟨fun _ => rfl, fun enabled => absurd rfl enabled⟩,
    fun n m pair claimed => absurd claimed (not_claims_initial pair)⟩

theorem buffers_initial : Egress.initial.buffers = [] := by decide

theorem heldBuffers_powerOn (s : State) : s.powerOn.heldBuffers = [] := by
  have captured : CaptureContext.initial.buffers = [] := rfl
  show Egress.initial.buffers ++ Egress.initial.buffers ++ CaptureContext.initial.buffers ++
    CaptureContext.initial.buffers = []
  simp only [buffers_initial, captured, List.append_nil]

theorem egress_buffers_subset (s : State) (e : Side) : (s.egress e).buffers ⊆ s.heldBuffers := by
  intro id held
  cases e <;> simp_all [State.heldBuffers, State.egress]

theorem capture_buffers_subset (s : State) (c : CtxId) : (s.capture c).buffers ⊆ s.heldBuffers := by
  intro id held
  cases c <;> simp_all [State.heldBuffers, State.capture]

theorem bufferLaw_of_no_buffers {s : State} (none_held : s.heldBuffers = []) : s.BufferLaw := by
  refine ⟨by simp [none_held], by simp [none_held], fun e id held => ?_, fun c id held => ?_⟩
  · have := egress_buffers_subset s e held
    simp [none_held] at this
  · have := capture_buffers_subset s c held
    simp [none_held] at this

/-- Settles O57: RESET_N low in the power-on state leaves that state. -/
theorem powerOnStateKeepsTheLaws : Obligations.PowerOnStateKeepsTheLaws :=
  ⟨tablesCanonical_powerOn State.reset, claimLaw_powerOn State.reset, unitLaw_powerOn State.reset,
    bufferLaw_of_no_buffers (heldBuffers_powerOn State.reset), routeLaw_powerOn State.reset⟩

/-! ## What ROUTE_ADD writes (R103, R104) -/

/-- A description that is written passes every check, at its own index or at an invalid one. -/
structure PlacesAt (s : State) (d : RouteDesc) (i : Nat) : Prop where
  sound : firstFault 1 (descFaults d) = none
  index : i < 256
  place : s.lookup d.slot.toNat d.pid.toNat = some i ∨
    s.lookup d.slot.toNat d.pid.toNat = none ∧ (s.route i).valid = false
  clear : ∀ side, s.collision (s.lookup d.slot.toNat d.pid.toNat) (entryOf d) side = none

theorem placeRoute_cases (s : State) (own : Option Nat) (e : RouteEntry) :
    (s.placeRoute own e).1 = s ∨ (∀ side, s.collision own e side = none) ∧
      ∃ i, (own = some i ∨ own = none ∧ i < 256 ∧ (s.route i).valid = false) ∧
        (s.placeRoute own e).1 = s.setRoute i e := by
  unfold State.placeRoute
  split
  · exact .inl rfl
  · next clearA =>
    split
    · exact .inl rfl
    · next clearB =>
      have clear : ∀ side, s.collision own e side = none := fun side => by cases side <;> assumption
      split
      · next i => exact .inr ⟨clear, i, .inl rfl, rfl⟩
      · split
        · next i found =>
          have invalid := List.find?_some found
          have index := List.mem_of_find?_eq_some found
          exact .inr ⟨clear, i, .inr ⟨rfl, by simpa [routeIndices] using index, by simpa using invalid⟩, rfl⟩
        · exact .inl rfl

theorem addRoute_cases (s : State) (d : RouteDesc) :
    (s.addRoute d).1 = s ∨ ∃ i, PlacesAt s d i ∧ (s.addRoute d).1 = s.setRoute i (entryOf d) := by
  unfold State.addRoute
  split
  · exact .inl rfl
  · next sound =>
    split
    · next i found =>
      split
      · rcases placeRoute_cases s (some i) (entryOf d) with same | ⟨clear, j, place, wrote⟩
        · exact .inl same
        · obtain rfl : i = j := by simpa using place
          exact .inr ⟨i, ⟨sound, State.lookup_lt found, .inl found, by rw [found]; exact clear⟩, wrote⟩
      · exact .inl rfl
    · next free =>
      rcases placeRoute_cases s none (entryOf d) with same | ⟨clear, j, place, wrote⟩
      · exact .inl same
      · obtain ⟨index, invalid⟩ : j < 256 ∧ (s.route j).valid = false := by simpa using place
        exact .inr ⟨j, ⟨sound, index, .inr ⟨free, invalid⟩, by rw [free]; exact clear⟩, wrote⟩

theorem addRoute_frame (s : State) (d : RouteDesc) : (s.addRoute d).1 = { s with routes := (s.addRoute d).1.routes } := by
  rcases addRoute_cases s d with same | ⟨i, _, wrote⟩
  · rw [same]
  · rw [wrote]
    rfl

/-! ## The first failing item of R102 -/

theorem firstFault_none {k : Nat} {faults : List Bool} :
    firstFault k faults = none ↔ ∀ i : Nat, faults[i]? ≠ some true := by
  induction faults generalizing k with
  | nil => simp [firstFault]
  | cons b bs ih =>
    cases b with
    | true => simpa [firstFault] using ⟨0, rfl⟩
    | false =>
      rw [firstFault, if_neg (by simp), ih]
      constructor
      · intro tail i
        cases i with
        | zero => simp
        | succ i => simpa using tail i
      · exact fun all i => by simpa using all (i + 1)

theorem firstFault_some {k n : Nat} {faults : List Bool} :
    firstFault k faults = some n ↔
      ∃ i, n = k + i ∧ faults[i]? = some true ∧ ∀ j, j < i → faults[j]? ≠ some true := by
  induction faults generalizing k with
  | nil => simp [firstFault]
  | cons b bs ih =>
    cases b with
    | true =>
      simp only [firstFault, if_true, Option.some.injEq]
      constructor
      · rintro rfl
        exact ⟨0, rfl, rfl, by simp⟩
      · rintro ⟨i, rfl, _, before⟩
        cases i with
        | zero => rfl
        | succ i => exact absurd rfl (before 0 (Nat.succ_pos i))
    | false =>
      rw [firstFault, if_neg (by simp), ih]
      constructor
      · rintro ⟨i, rfl, here, before⟩
        refine ⟨i + 1, by omega, by simpa using here, fun j below => ?_⟩
        cases j with
        | zero => simp
        | succ j => simpa using before j (by omega)
      · rintro ⟨i, rfl, here, before⟩
        cases i with
        | zero => simp at here
        | succ i => exact ⟨i, by omega, by simpa using here, fun j below => by simpa using before (j + 1) (by omega)⟩

theorem descBad_range {d : RouteDesc} {k : Nat} (bad : DescBad d k) : 1 ≤ k ∧ k ≤ 7 := by
  match k, bad with
  | 0, bad => exact bad.elim
  | 1, _ | 2, _ | 3, _ | 4, _ | 5, _ | 6, _ | 7, _ => simp
  | k + 8, bad => exact bad.elim

theorem descFault_iff (d : RouteDesc) (i : Nat) : (descFaults d)[i]? = some true ↔ DescBad d (i + 1) := by
  obtain ⟨length, items⟩ := descFaults_spec d
  by_cases below : i < 7
  · exact items i below
  · rw [List.getElem?_eq_none (by omega)]
    constructor
    · simp
    · intro bad
      have := descBad_range bad
      omega

theorem firstFault_desc_none (d : RouteDesc) : firstFault 1 (descFaults d) = none ↔ ∀ k, ¬DescBad d k := by
  simp only [firstFault_none, ne_eq, descFault_iff]
  constructor
  · intro none_bad k bad
    obtain ⟨i, rfl⟩ : ∃ i, k = i + 1 := ⟨k - 1, by have := descBad_range bad; omega⟩
    exact none_bad i bad
  · exact fun none_bad i => none_bad (i + 1)

theorem firstFault_desc_some (d : RouteDesc) (k : Nat) :
    firstFault 1 (descFaults d) = some k ↔ DescBad d k ∧ ∀ j, j < k → ¬DescBad d j := by
  simp only [firstFault_some, ne_eq, descFault_iff]
  constructor
  · rintro ⟨i, rfl, bad, before⟩
    refine ⟨by rwa [Nat.add_comm], fun j below worse => ?_⟩
    obtain ⟨m, rfl⟩ : ∃ m, j = m + 1 := ⟨j - 1, by have := descBad_range worse; omega⟩
    exact before m (by omega) worse
  · rintro ⟨bad, before⟩
    obtain ⟨i, rfl⟩ : ∃ i, k = i + 1 := ⟨k - 1, by have := descBad_range bad; omega⟩
    exact ⟨i, by omega, bad, fun j below => before (j + 1) (by omega)⟩

/-! ## The entry of a sound description -/

theorem slot_entryOf {d : RouteDesc} (sound : ∀ k, ¬DescBad d k) : (entryOf d).slot.val = d.slot.toNat := by
  have below : d.slot.toNat < 6 := by
    have := sound 1
    simp only [DescBad] at this
    omega
  simp [entryOf, slotOf, below]

theorem pid_entryOf {d : RouteDesc} (sound : ∀ k, ¬DescBad d k) :
    (entryOf d).pid.toNat = d.pid.toNat ∧ d.pid.toNat ≤ 8190 := by
  have below : d.pid.toNat ≤ 8190 := by
    have := sound 2
    simp only [DescBad] at this
    omega
  refine ⟨?_, below⟩
  simp only [entryOf, BitVec.toNat_setWidth]
  omega

/-- A present output PID of a sound description is written as it is carried. -/
theorem outPidOf_eq {p : BitVec 16} (sound : ¬(p ≠ 0xFFFF ∧ 8190 < p.toNat)) :
    (outPidOf p).map BitVec.toNat = (if p = 0xFFFF then none else some p.toNat) ∧ outPidOf p ≠ some 8191 := by
  unfold outPidOf absentPid
  split
  · exact ⟨rfl, by simp⟩
  · next present =>
    have below : p.toNat ≤ 8190 := by
      by_contra above
      exact sound ⟨present, by omega⟩
    have carried : (p.setWidth 13).toNat = p.toNat := by
      rw [BitVec.toNat_setWidth]
      omega
    refine ⟨by rw [Option.map_some, carried], fun reserved => ?_⟩
    have := congrArg BitVec.toNat (Option.some.inj reserved)
    rw [carried] at this
    simp at this
    omega

theorem law_entryOf {d : RouteDesc} (sound : ∀ k, ¬DescBad d k) : (entryOf d).Law := by
  have sends := sound 3
  have absent := sound 4
  have outs := sound 5
  simp only [DescBad, not_or] at sends absent outs
  obtain ⟨pid, below⟩ := pid_entryOf sound
  refine ⟨?_, fun notA => ?_, fun notB => ?_, fun reserved => ?_, (outPidOf_eq outs.1).2, (outPidOf_eq outs.2).2⟩
  · show d.egressSet.getLsbD 0 = true ∨ d.egressSet.getLsbD 1 = true
    have named : ∀ set : Byte, ¬set.toNat = 0 → ¬3 < set.toNat → set.getLsbD 0 = true ∨ set.getLsbD 1 = true := by decide
    exact named _ sends.1 sends.2
  · by_contra present
    have carried : d.outA ≠ 0xFFFF := fun absentA => present (by simp [entryOf, outPidOf, absentPid, absentA])
    exact absent.1 ⟨carried, notA⟩
  · by_contra present
    have carried : d.outB ≠ 0xFFFF := fun absentB => present (by simp [entryOf, outPidOf, absentPid, absentB])
    exact absent.2 ⟨carried, notB⟩
  · rw [reserved] at pid
    simp at pid
    omega

/-! ## Unique keys and output pairs (R97, R99) -/

/-- Two entries have different keys, and on an egress to which both send different output PIDs. -/
abbrev EntriesApart (r q : RouteEntry) : Prop :=
  ¬(r.slot = q.slot ∧ r.pid = q.pid) ∧ ∀ e : Side, r.sends e = true → q.sends e = true → r.outPid e ≠ q.outPid e

theorem EntriesApart.symm {r q : RouteEntry} (h : EntriesApart r q) : EntriesApart q r :=
  ⟨fun same => h.1 ⟨same.1.symm, same.2.symm⟩, fun e sq sr => (h.2 e sr sq).symm⟩

theorem routeLaw_iff (s : State) :
    s.RouteLaw ↔ (∀ i, i < 256 → (s.route i).valid = true → (s.route i).Law) ∧
      ∀ i j, i < 256 → j < 256 → i ≠ j → (s.route i).valid = true → (s.route j).valid = true →
        EntriesApart (s.route i) (s.route j) := by
  constructor
  · rintro ⟨own, apart⟩
    refine ⟨own, fun i j hi hj differ vi vj => ?_⟩
    rcases Nat.lt_or_gt_of_ne differ with below | above
    · exact EntriesApart.symm (apart j i hj below vj vi)
    · exact apart i j hi above vi vj
  · rintro ⟨own, apart⟩
    exact ⟨own, fun i j hi below vi vj => apart i j hi (by omega) (by omega) vi vj⟩

/-- Entries that keep all but their counters and may become invalid keep the law. -/
theorem routeLaw_of_steps {s t : State} (step : ∀ i, RouteStep (s.route i) (t.route i)) (law : s.RouteLaw) :
    t.RouteLaw := by
  rw [routeLaw_iff] at law ⊢
  obtain ⟨own, apart⟩ := law
  constructor
  · intro i hi valid
    have kept := own i hi ((step i).1 valid)
    rw [(step i).2]
    exact kept
  · intro i j hi hj differ vi vj
    have kept := apart i j hi hj differ ((step i).1 vi) ((step j).1 vj)
    rw [(step i).2, (step j).2]
    exact kept

theorem RouteStep.refl (r : RouteEntry) : RouteStep r r := ⟨id, rfl⟩

theorem routeLaw_setRoute {s : State} (wf : Rising s.routes) {i : Nat} {e : RouteEntry} (step : RouteStep (s.route i) e)
    (law : s.RouteLaw) : (s.setRoute i e).RouteLaw := by
  refine routeLaw_of_steps (fun j => ?_) law
  rw [State.route_setRoute s i j e wf]
  split
  · next same =>
    subst same
    exact step
  · exact RouteStep.refl _

theorem routeLaw_clearRoutes {s : State} (wf : Rising s.routes) (law : s.RouteLaw) :
    ({ s with routes := clearRoutes s.routes } : State).RouteLaw := by
  refine routeLaw_of_steps (fun i => ?_) law
  have read : ({ s with routes := clearRoutes s.routes } : State).route i = (s.route i).invalidate :=
    read_clearRoutes wf i
  rw [read]
  exact ⟨fun valid => (by cases valid), rfl⟩

/-- A written description is apart from every other valid entry. -/
theorem apart_of_places {s : State} {d : RouteDesc} {i j : Nat} (law : s.RouteLaw) (places : PlacesAt s d i)
    (hj : j < 256) (differ : i ≠ j) (valid : (s.route j).valid = true) : EntriesApart (entryOf d) (s.route j) := by
  have sound := (firstFault_desc_none d).mp places.sound
  have slot := slot_entryOf sound
  have pid := (pid_entryOf sound).1
  have foreign : some j ≠ s.lookup d.slot.toNat d.pid.toNat := by
    rcases places.place with own | ⟨free, _⟩
    · rw [own]
      exact fun same => differ (Option.some.inj same).symm
    · rw [free]
      simp
  constructor
  · rintro ⟨sameSlot, samePid⟩
    have holds : j < 256 ∧ (s.route j).valid = true ∧ (s.route j).slot.val = d.slot.toNat ∧
        (s.route j).pid.toNat = d.pid.toNat := ⟨hj, valid, by rw [← sameSlot, slot], by rw [← samePid, pid]⟩
    obtain ⟨absent, found⟩ := s.lookup_spec d.slot.toNat d.pid.toNat
    rcases places.place with own | ⟨free, _⟩
    · obtain ⟨hi, validI, slotI, pidI⟩ := found i own
      have apart := ((routeLaw_iff s).mp law).2 i j hi hj differ validI valid
      exact apart.1 ⟨Fin.ext (slotI.trans holds.2.2.1.symm), BitVec.eq_of_toNat_eq (pidI.trans holds.2.2.2.symm)⟩
    · exact absent.mp free j holds
  · intro side sends others same
    rcases (s.collision_spec _ (entryOf d) side).1.mp (places.clear side) with silent | none_meets
    · rw [silent] at sends
      cases sends
    · exact none_meets j ⟨hj, foreign, valid, others, same.symm⟩

theorem routeLaw_addRoute {s : State} (wf : Rising s.routes) (law : s.RouteLaw) (d : RouteDesc) :
    (s.addRoute d).1.RouteLaw := by
  rcases addRoute_cases s d with same | ⟨i, places, wrote⟩
  · rw [same]
    exact law
  · rw [wrote]
    obtain ⟨own, apart⟩ := (routeLaw_iff s).mp law
    have sound := (firstFault_desc_none d).mp places.sound
    have read := fun j => State.route_setRoute s i j (entryOf d) wf
    rw [routeLaw_iff]
    refine ⟨fun j hj valid => ?_, fun j k hj hk differ vj vk => ?_⟩
    · by_cases here : i = j
      · rw [read, if_pos here]
        exact law_entryOf sound
      · rw [read, if_neg here] at valid ⊢
        exact own j hj valid
    · by_cases hereJ : i = j
      · have hereK : i ≠ k := fun h => differ (hereJ.symm.trans h)
        rw [read, if_neg hereK] at vk
        rw [read, read, if_pos hereJ, if_neg hereK]
        exact apart_of_places law places hk hereK vk
      · rw [read, if_neg hereJ] at vj
        by_cases hereK : i = k
        · rw [read, read, if_neg hereJ, if_pos hereK]
          exact (apart_of_places law places hj hereJ vj).symm
        · rw [read, if_neg hereK] at vk
          rw [read, read, if_neg hereJ, if_neg hereK]
          exact apart j k hj hk differ vj vk

/-! ## The tables and the units along every move -/

theorem program_routes (s : State) (p : SlotSetParams) (ns : List SlotId) :
    (ns.foldl (State.program p) s).routes = s.routes ∧
      (∀ e, (ns.foldl (State.program p) s).egress e = s.egress e) ∧
      (∀ l, (ns.foldl (State.program p) s).link l = s.link l) := by
  rw [program_frame]
  exact ⟨rfl, fun e => by cases e <;> rfl, fun l => by cases l <;> rfl⟩

theorem tablesCanonical_iff (s : State) :
    s.TablesCanonical ↔ Memory.wf RouteEntry.initial 256 s.routes ∧
      ∀ e, Memory.wf (0 : BitVec 4) 8192 (s.egress e).continuity :=
  and_congr_right fun _ => ⟨fun both e => by cases e <;> [exact both.1; exact both.2], fun each => ⟨each .a, each .b⟩⟩

/-- Two egresses with the same table, or the other egress after a change of one. -/
theorem setEgress_each {P : Egress → Prop} {s : State} {e : Side} {x : Egress} (all : ∀ f, P (s.egress f)) (new : P x)
    (f : Side) : P ((s.setEgress e x).egress f) := by
  rw [State.egress_setEgress]
  split
  · exact new
  · exact all f

theorem move_keeps_tables (s t : State) (move : Move s t) (tables : s.TablesCanonical) : t.TablesCanonical := by
  rw [tablesCanonical_iff] at tables ⊢
  obtain ⟨routes, continuity⟩ := tables
  cases move with
  | beside same => exact ⟨by rw [same.routes]; exact routes, fun e => by rw [same.egress]; exact continuity e⟩
  | powerOn => exact (tablesCanonical_iff _).mp (tablesCanonical_powerOn s)
  | slots v _ => exact ⟨routes, continuity⟩
  | program p =>
    obtain ⟨sameRoutes, sameEgress, _⟩ := program_routes s p (maskSlots p.mask)
    exact ⟨by rw [sameRoutes]; exact routes, fun e => by rw [sameEgress]; exact continuity e⟩
  | route i e index _ => exact ⟨Memory.wf_write routes i e index, by simpa using continuity⟩
  | addRoute d =>
    rcases addRoute_cases s d with same | ⟨i, places, wrote⟩
    · rw [same]
      exact ⟨routes, continuity⟩
    · rw [wrote]
      exact ⟨Memory.wf_write routes i _ places.index, by simpa using continuity⟩
  | clearRoutes => exact ⟨clearRoutes_wf routes, continuity⟩
  | egress e x step => exact ⟨by simpa using routes,
      setEgress_each (P := fun y => Memory.wf (0 : BitVec 4) 8192 y.continuity) continuity (step.table (continuity e))⟩
  | enqueue e b _ _ => exact ⟨by simpa using routes,
      setEgress_each (P := fun y => Memory.wf (0 : BitVec 4) 8192 y.continuity) continuity (continuity e)⟩
  | capture c x _ => exact ⟨by simpa using routes, by simpa using continuity⟩
  | take c x _ _ _ => exact ⟨by simpa using routes, by simpa using continuity⟩
  | bank b k _ => exact ⟨by simpa using routes, by simpa using continuity⟩

theorem unitLaw_iff (s : State) : s.UnitLaw ↔ (∀ l, (s.link l).Law) ∧ ∀ e, (s.egress e).Law := by
  constructor
  · rintro ⟨linkA, linkB, egressA, egressB⟩
    exact ⟨fun l => by cases l <;> assumption, fun e => by cases e <;> assumption⟩
  · exact fun ⟨links, egresses⟩ => ⟨links .a, links .b, egresses .a, egresses .b⟩

theorem egressLaw_enqueue {x : Egress} (b : Buffer) (running : x.run = .running) (law : x.Law) : (x.enqueue b).Law :=
  ⟨law.1, law.2.1, law.2.2.1, fun stopped => absurd running stopped⟩

theorem move_keeps_units (s t : State) (move : Move s t) (units : s.UnitLaw) : t.UnitLaw := by
  rw [unitLaw_iff] at units ⊢
  obtain ⟨links, egresses⟩ := units
  cases move with
  | beside same => exact ⟨fun l => same.link l (links l), fun e => by rw [same.egress]; exact egresses e⟩
  | powerOn => exact (unitLaw_iff _).mp (unitLaw_powerOn s)
  | slots v _ => exact ⟨links, egresses⟩
  | program p =>
    obtain ⟨_, sameEgress, sameLink⟩ := program_routes s p (maskSlots p.mask)
    exact ⟨fun l => by rw [sameLink]; exact links l, fun e => by rw [sameEgress]; exact egresses e⟩
  | route i e _ _ => exact ⟨by simpa using links, by simpa using egresses⟩
  | addRoute d =>
    rw [addRoute_frame]
    exact ⟨links, egresses⟩
  | clearRoutes => exact ⟨links, egresses⟩
  | egress e x step => exact ⟨by simpa using links, setEgress_each egresses (step.law (egresses e))⟩
  | enqueue e b running _ =>
    exact ⟨by simpa using links, setEgress_each egresses (egressLaw_enqueue b running (egresses e))⟩
  | capture c x _ => exact ⟨by simpa using links, by simpa using egresses⟩
  | take c x _ _ _ => exact ⟨by simpa using links, by simpa using egresses⟩
  | bank b k _ => exact ⟨by simpa using links, by simpa using egresses⟩

theorem routeLaw_congr {s t : State} (same : t.routes = s.routes) (law : s.RouteLaw) : t.RouteLaw := by
  have read : ∀ i, t.route i = s.route i := fun i => by rw [State.route, State.route, same]
  simpa only [State.RouteLaw, read] using law

theorem move_keeps_routes (s t : State) (move : Move s t) (laws : s.TablesCanonical ∧ s.RouteLaw) :
    t.TablesCanonical ∧ t.RouteLaw := by
  obtain ⟨tables, law⟩ := laws
  refine ⟨move_keeps_tables s t move tables, ?_⟩
  have rising : Rising s.routes := tables.1.1
  cases move with
  | beside same => exact routeLaw_congr same.routes law
  | powerOn => exact routeLaw_powerOn s
  | program p => exact routeLaw_congr (program_routes s p _).1 law
  | route i e _ step => exact routeLaw_setRoute rising step law
  | addRoute d => exact routeLaw_addRoute rising law d
  | clearRoutes => exact routeLaw_clearRoutes rising law
  | slots v _ => exact routeLaw_congr rfl law
  | egress e x _ => exact routeLaw_congr (by simp) law
  | enqueue e b _ _ => exact routeLaw_congr (by simp) law
  | capture c x _ => exact routeLaw_congr (by simp) law
  | take c x _ _ _ => exact routeLaw_congr (by simp) law
  | bank b k _ => exact routeLaw_congr (by simp) law

/-- Settles O58, by the moves of which every step is made. -/
theorem stepKeepsTablesAndUnits : Obligations.StepKeepsTablesAndUnits :=
  ⟨fun _ _ tables step => step_keeps move_keeps_tables step tables,
    fun _ _ units step => step_keeps move_keeps_units step units,
    fun _ _ tables law step => (step_keeps move_keeps_routes step ⟨tables, law⟩).2⟩

end Sys2Proof.Machine
end

section
/-! SUPPORT. The checks of SLOT_SET (R22 to R24) and the claim law of R21, which a SLOT_SET that passes them keeps. -/

namespace Sys2Proof.Machine

open Sys2Proof

/-! ## The checks of SLOT_SET -/

theorem conflictWith_none {n m : SlotId} {pair : RfId × Nat} {other : Slot} :
    conflictWith n m pair other = none ↔ n = m ∨ ¬other.claims pair := by
  unfold conflictWith Slot.claims
  by_cases same : n = m
  · simp [same]
  · by_cases programmed : other.programmedClaim = some pair
    · simp [same, programmed]
    · by_cases active : other.activeClaim = some pair <;> simp [same, programmed, active]

theorem slotConflict_none {s : State} {p : SlotSetParams} {n : SlotId} :
    s.slotConflict p n = none ↔
      ∀ m pair, n ≠ m → (setWrite p (s.slot n).programmed).pair = some pair → ¬(s.slot m).claims pair := by
  unfold State.slotConflict
  split
  · next absent => simp [absent]
  · next pair present =>
    simp only [List.findSome?_eq_none_iff, mem_allSlots, true_implies, conflictWith_none, present, Option.some.injEq]
    exact ⟨fun all m q differ same => same ▸ (all m).resolve_left differ,
      fun all m => or_iff_not_imp_left.mpr fun differ => all m pair differ rfl⟩

theorem setConflict_none {s : State} {p : SlotSetParams} :
    s.setConflict p = none ↔ ∀ n m pair, p.mask.getLsbD n.val = true → n ≠ m →
      (setWrite p (s.slot n).programmed).pair = some pair → ¬(s.slot m).claims pair := by
  simp only [State.setConflict, List.findSome?_eq_none_iff, mem_maskSlots, slotConflict_none]
  exact ⟨fun all n m pair masked => all n masked m pair, fun all n masked m pair => all n m pair masked⟩

/-- More than one slot in a mask, with no slot named twice. -/
theorem one_lt_maskSlots (mask : Byte) :
    1 < (maskSlots mask).length ↔ ∃ n m : SlotId, n ≠ m ∧ mask.getLsbD n.val = true ∧ mask.getLsbD m.val = true := by
  constructor
  · intro several
    match list : maskSlots mask, several with
    | n :: m :: rest, _ =>
      have nodup := nodup_maskSlots mask
      rw [list, List.nodup_cons] at nodup
      refine ⟨n, m, fun same => nodup.1 (by simp [same]), ?_, ?_⟩ <;> rw [← mem_maskSlots, list] <;> simp
  · rintro ⟨n, m, differ, hn, hm⟩
    rw [← mem_maskSlots] at hn hm
    match list : maskSlots mask with
    | [] => simp [list] at hn
    | [k] =>
      rw [list, List.mem_singleton] at hn hm
      exact absurd (hn.trans hm.symm) differ
    | _ :: _ :: _ => simp

theorem setBadShape_none {p : SlotSetParams} :
    setBadShape p = none ↔ maskOk p.mask = true ∧
      ¬(1 < (maskSlots p.mask).length ∧ (setHas p 1 = true ∨ setHas p 2 = true)) ∧
      setFirstBad p 1 (setValueChecks p) = none := by
  unfold setBadShape
  cases maskOk p.mask with
  | false => simp
  | true =>
    by_cases shared : 1 < (maskSlots p.mask).length ∧ (setHas p 1 = true ∨ setHas p 2 = true)
    · simp [shared.1, shared.2]
    · have passes : (decide (1 < (maskSlots p.mask).length) && (setHas p 1 || setHas p 2)) = false := by
        simpa using shared
      simp [passes, shared]

/-- An accepted SLOT_SET of more than one slot carries neither field of the pair (R22). -/
theorem pair_kept_of_shape {p : SlotSetParams} (shape : setBadShape p = none) {n m : SlotId} (differ : n ≠ m)
    (hn : p.mask.getLsbD n.val = true) (hm : p.mask.getLsbD m.val = true) (r : TuningRecord) :
    (setWrite p r).pair = r.pair := by
  have several := (one_lt_maskSlots p.mask).mpr ⟨n, m, differ, hn, hm⟩
  have absent : setHas p 1 = false ∧ setHas p 2 = false := by
    simpa [several] using (setBadShape_none.mp shape).2.1
  simp [TuningRecord.pair, setWrite, absent.1, absent.2]

theorem setUnsets_none {s : State} {p : SlotSetParams} (unsets : s.setUnsets p = none) {n : SlotId}
    (masked : p.mask.getLsbD n.val = true) (enabled : (s.slot n).acq ≠ .off)
    (set : (s.slot n).programmed.frequency.isSome = true) :
    (setWrite p (s.slot n).programmed).frequency.isSome = true := by
  show (if setHas p 2 then frequencyOf p.frequency else (s.slot n).programmed.frequency).isSome = true
  by_cases present : setHas p 2 = true
  · rw [if_pos present, frequencyOf]
    split
    · next zero =>
      simp only [State.setUnsets, present, zero, beq_self_eq_true, Bool.and_self, if_true, List.find?_eq_none,
        mem_maskSlots] at unsets
      exact absurd (by simpa [Slot.enabled] using enabled) (unsets n masked)
    · rfl
  · rw [if_neg present]
    exact set

/-! ## The claims along every move -/

theorem claims_of_step {x y : Slot} (step : SlotStep x y) {pair : RfId × Nat} (claim : y.claims pair) :
    x.claims pair := by
  obtain ⟨programmed, active⟩ := step
  rcases claim with byProgram | byActive
  · exact .inl (by rwa [Slot.programmedClaim, programmed] at byProgram)
  · unfold Slot.activeClaim at byActive
    split at byActive
    · next enabled =>
      have on : y.acq ≠ .off := by simpa [Slot.enabled] using enabled
      rcases active with ⟨sameAcq, same⟩ | ⟨off, _⟩ | ⟨_, was, same⟩ | ⟨_, copied, _⟩
      · right
        rw [Slot.activeClaim, if_pos (by simpa [Slot.enabled, ← sameAcq] using on), ← same]
        exact byActive
      · exact absurd off on
      · right
        rw [Slot.activeClaim, if_pos (by simpa [Slot.enabled] using was), ← same]
        exact byActive
      · left
        rwa [copied, Option.bind_some] at byActive
    · cases byActive

theorem recordLaw_of_step {x y : Slot} (step : SlotStep x y) (law : x.RecordLaw) : y.RecordLaw := by
  obtain ⟨programmed, active⟩ := step
  obtain ⟨inOff, inUse⟩ := law
  rw [Slot.RecordLaw, programmed]
  rcases active with ⟨sameAcq, same⟩ | ⟨off, gone⟩ | ⟨is, was, same⟩ | ⟨is, copied, may⟩
  · rw [sameAcq, same]
    exact ⟨inOff, inUse⟩
  · exact ⟨fun _ => gone, fun enabled => absurd off enabled⟩
  · rw [same]
    exact ⟨fun off => absurd off is, fun _ => inUse was⟩
  · rw [copied]
    exact ⟨fun off => absurd off is, fun _ => ⟨rfl, may.elim (fun was => (inUse was).2) id⟩⟩

theorem claimLaw_of_steps {s t : State} (step : ∀ n, SlotStep (s.slot n) (t.slot n)) (law : s.ClaimLaw) : t.ClaimLaw :=
  ⟨fun n => recordLaw_of_step (step n) (law.1 n),
    fun n m pair cn cm => law.2 n m pair (claims_of_step (step n) cn) (claims_of_step (step m) cm)⟩

theorem claimLaw_congr {s t : State} (same : t.slots = s.slots) (law : s.ClaimLaw) : t.ClaimLaw :=
  claimLaw_of_steps (fun n => by rw [State.slot, State.slot, same]; exact SlotStep.refl _) law

/-- After an accepted SLOT_SET: a slot of the mask holds its written record, every other slot what it held. -/
theorem slot_accepted (s : State) (p : SlotSetParams) (n : SlotId) :
    ((maskSlots p.mask).foldl (State.program p) s).slot n =
      if p.mask.getLsbD n.val = true then { s.slot n with programmed := setWrite p (s.slot n).programmed }
      else s.slot n := by
  rw [slot_programmed p s _ (nodup_maskSlots _)]
  simp only [mem_maskSlots]

/-- A pair that a slot claims after an accepted SLOT_SET it claimed before, or its written record brings it. -/
theorem claims_accepted {s : State} {p : SlotSetParams} {n : SlotId} {pair : RfId × Nat}
    (claim : (((maskSlots p.mask).foldl (State.program p) s).slot n).claims pair) :
    (s.slot n).claims pair ∨
      p.mask.getLsbD n.val = true ∧ (setWrite p (s.slot n).programmed).pair = some pair := by
  rw [slot_accepted] at claim
  split at claim
  · next masked =>
    rcases claim with byProgram | byActive
    · exact .inr ⟨masked, byProgram⟩
    · exact .inl (.inr byActive)
  · exact .inl claim

theorem claimLaw_program {s : State} {p : SlotSetParams} (shape : setBadShape p = none) (unsets : s.setUnsets p = none)
    (conflict : s.setConflict p = none) (law : s.ClaimLaw) :
    ((maskSlots p.mask).foldl (State.program p) s).ClaimLaw := by
  have free := setConflict_none.mp conflict
  refine ⟨fun n => ?_, fun n m pair cn cm => ?_⟩
  · obtain ⟨inOff, inUse⟩ := law.1 n
    rw [slot_accepted]
    split
    · next masked =>
      exact ⟨inOff, fun enabled => ⟨(inUse enabled).1, setUnsets_none unsets masked enabled (inUse enabled).2⟩⟩
    · exact law.1 n
  · by_contra differ
    rcases claims_accepted cn with oldN | ⟨maskN, newN⟩ <;> rcases claims_accepted cm with oldM | ⟨maskM, newM⟩
    · exact differ (law.2 n m pair oldN oldM)
    · exact free m n pair maskM (Ne.symm differ) newM oldN
    · exact free n m pair maskN differ newN oldM
    · rw [pair_kept_of_shape shape differ maskN maskM] at newN newM
      exact differ (law.2 n m pair (.inl newN) (.inl newM))

theorem move_keeps_claims (s t : State) (move : Move s t) (law : s.ClaimLaw) : t.ClaimLaw := by
  cases move with
  | powerOn => exact claimLaw_powerOn s
  | slots v step => exact claimLaw_of_steps step law
  | program p shape unsets conflict => exact claimLaw_program shape unsets conflict law
  | beside same => exact claimLaw_congr same.slots law
  | addRoute d =>
    rw [addRoute_frame]
    exact claimLaw_congr rfl law
  | clearRoutes => exact claimLaw_congr rfl law
  | route i e _ _ => exact claimLaw_congr (by simp) law
  | egress e x _ => exact claimLaw_congr (by simp) law
  | enqueue e b _ _ => exact claimLaw_congr (by simp) law
  | capture c x _ => exact claimLaw_congr (by simp) law
  | take c x _ _ _ => exact claimLaw_congr (by simp) law
  | bank b k _ => exact claimLaw_congr (by simp) law

/-- Settles O59, by the moves of which every step is made. -/
theorem stepKeepsTheClaims : Obligations.StepKeepsTheClaims :=
  fun _ _ law step => step_keeps move_keeps_claims step law

end Sys2Proof.Machine
end

section
/-! SUPPORT. The law of Packet Memory (R117, R132, R133) along every move, and the counts of free and held buffers that
follow from it. -/

namespace Sys2Proof.Machine

open Sys2Proof

/-! ## The law of Packet Memory along every move -/

theorem heldBuffers_sublist {s t : State} (egress : ∀ e, (t.egress e).buffers.Sublist (s.egress e).buffers)
    (capture : ∀ c, (t.capture c).buffers.Sublist (s.capture c).buffers) : t.heldBuffers.Sublist s.heldBuffers :=
  (((egress .a).append (egress .b)).append (capture .c0)).append (capture .c1)

/-- Where the Bank Map stays and no holder gains a buffer the law is kept. -/
theorem bufferLaw_of_sublist {s t : State} (banks : t.banks = s.banks)
    (egress : ∀ e, (t.egress e).buffers.Sublist (s.egress e).buffers)
    (capture : ∀ c, (t.capture c).buffers.Sublist (s.capture c).buffers) (law : s.BufferLaw) : t.BufferLaw := by
  obtain ⟨nodup, index, byEgress, byCapture⟩ := law
  have held := heldBuffers_sublist egress capture
  refine ⟨nodup.sublist held, fun id h => index id (held.subset h), fun e id h => ?_, fun c id h => ?_⟩
  · rw [banks]
    exact byEgress e id ((egress e).subset h)
  · rw [banks]
    exact byCapture c id ((capture c).subset h)

theorem owner_of_lends {s : State} {o : Owner} {b : Fin 8} (lends : s.lends o b = true) : s.banks[b].owner = o := by
  simp only [State.lends, Bool.and_eq_true, beq_iff_eq] at lends
  exact lends.1

/-- A granted buffer joins one holder of the owner that was granted it. -/
theorem bufferLaw_of_grant {s t : State} {o : Owner} {id : BufferId} (granted : s.allocate o = some id)
    (banks : t.banks = s.banks) (held : t.heldBuffers.Perm (id :: s.heldBuffers))
    (egress : ∀ e i, i ∈ (t.egress e).buffers → i ∈ (s.egress e).buffers ∨ i = id ∧ o = egressOwner e)
    (capture : ∀ c i, i ∈ (t.capture c).buffers → i ∈ (s.capture c).buffers ∨ i = id ∧ o = .capture)
    (law : s.BufferLaw) : t.BufferLaw := by
  obtain ⟨nodup, index, byEgress, byCapture⟩ := law
  obtain ⟨lends, free, below, _⟩ := State.allocate_spec granted
  have owner := owner_of_lends lends
  refine ⟨held.nodup_iff.mpr (List.nodup_cons.mpr ⟨free, nodup⟩), fun i h => ?_, fun e i h => ?_, fun c i h => ?_⟩
  · rcases List.mem_cons.mp (held.subset h) with rfl | old
    · exact below
    · exact index i old
  · rw [banks]
    rcases egress e i h with old | ⟨rfl, mine⟩
    · exact byEgress e i old
    · rw [owner, mine]
  · rw [banks]
    rcases capture c i h with old | ⟨rfl, mine⟩
    · exact byCapture c i old
    · rw [owner, mine]

theorem bufferLaw_enqueue {s : State} {e : Side} {b : Buffer} (granted : s.allocate (egressOwner e) = some b.id)
    (law : s.BufferLaw) : (s.setEgress e ((s.egress e).enqueue b)).BufferLaw := by
  have joined := Egress.buffers_enqueue (s.egress e) b
  refine bufferLaw_of_grant granted (by simp) ?_ (fun f i h => ?_) (fun c i h => .inl (by simpa using h)) law
  · cases e with
    | a => exact ((joined.append_right _).append_right _).append_right _
    | b =>
      refine (((joined.append_left s.egressA.buffers).append_right _).append_right _).trans ?_
      exact ((List.perm_middle.append_right _).append_right _)
  · rw [State.egress_setEgress] at h
    split at h
    · next same =>
      subst same
      rcases List.mem_cons.mp (joined.subset h) with rfl | old
      · exact .inr ⟨rfl, rfl⟩
      · exact .inl old
    · exact .inl h

theorem bufferLaw_take {s : State} {c : CtxId} {x : CaptureContext} {id : BufferId}
    (granted : s.allocate .capture = some id) (joined : x.buffers = (s.capture c).buffers ++ [id])
    (law : s.BufferLaw) : (s.setCapture c x).BufferLaw := by
  refine bufferLaw_of_grant granted (by simp) ?_ (fun e i h => .inl (by simpa using h)) (fun d i h => ?_) law
  · have front : x.buffers.Perm (id :: (s.capture c).buffers) := by
      rw [joined]
      exact List.perm_append_singleton id _
    cases c with
    | c0 =>
      refine ((front.append_left (s.egressA.buffers ++ s.egressB.buffers)).append_right _).trans ?_
      exact List.perm_middle.append_right _
    | c1 => exact (front.append_left (s.egressA.buffers ++ s.egressB.buffers ++ s.capture0.buffers)).trans List.perm_middle
  · rw [State.capture_setCapture] at h
    split at h
    · next same =>
      subst same
      rw [joined, List.mem_append, List.mem_singleton] at h
      exact h.imp_right fun here => ⟨here, rfl⟩
    · exact .inl h

theorem heldBuffers_congr {s t : State} (egress : ∀ e, t.egress e = s.egress e) (capture : ∀ c, t.capture c = s.capture c) :
    t.heldBuffers = s.heldBuffers := by
  show (t.egress .a).buffers ++ (t.egress .b).buffers ++ (t.capture .c0).buffers ++ (t.capture .c1).buffers = _
  rw [egress, egress, capture, capture]
  rfl

/-- A bank changes its record while it holds no buffer, or keeps its owner. -/
theorem bufferLaw_setBank {s : State} {b : Fin 8} {k : Bank} (may : s.bankHeld b = 0 ∨ k.owner = s.banks[b].owner)
    (law : s.BufferLaw) : (s.setBank b k).BufferLaw := by
  obtain ⟨nodup, index, byEgress, byCapture⟩ := law
  have held : (s.setBank b k).heldBuffers = s.heldBuffers :=
    heldBuffers_congr (fun e => by simp) (fun c => by simp)
  have owner : ∀ id ∈ s.heldBuffers, (s.setBank b k).banks[id.bank].owner = s.banks[id.bank].owner := by
    intro id here
    by_cases changed : b = id.bank
    · subst changed
      have new : (s.setBank id.bank k).banks[id.bank] = k := by simp [State.setBank]
      rw [new]
      refine may.resolve_left fun empty => ?_
      have := List.countP_eq_zero.mp empty id here
      simp at this
    · have apart : (b : Nat) ≠ id.bank := fun same => changed (Fin.ext same)
      simp [State.setBank, apart]
  refine ⟨by rw [held]; exact nodup, by rw [held]; exact index, fun e id h => ?_, fun c id h => ?_⟩
  · have here : id ∈ (s.egress e).buffers := by simpa using h
    rw [owner id (egress_buffers_subset s e here)]
    exact byEgress e id here
  · have here : id ∈ (s.capture c).buffers := by simpa using h
    rw [owner id (capture_buffers_subset s c here)]
    exact byCapture c id here

theorem bufferLaw_congr {s t : State} (banks : t.banks = s.banks) (egress : ∀ e, t.egress e = s.egress e)
    (capture : ∀ c, t.capture c = s.capture c) (law : s.BufferLaw) : t.BufferLaw :=
  bufferLaw_of_sublist banks (fun e => by rw [egress]) (fun c => by rw [capture]) law

theorem move_keeps_buffers (s t : State) (move : Move s t) (law : s.BufferLaw) : t.BufferLaw := by
  cases move with
  | powerOn => exact bufferLaw_of_no_buffers (heldBuffers_powerOn s)
  | egress e x step =>
    refine bufferLaw_of_sublist (by simp) (fun f => ?_) (fun c => by simp) law
    rw [State.egress_setEgress]
    split
    · next same =>
      subst same
      exact step.buffers
    · exact List.Sublist.refl _
  | enqueue e b _ granted => exact bufferLaw_enqueue granted law
  | capture c x fewer =>
    refine bufferLaw_of_sublist (by simp) (fun e => by simp) (fun d => ?_) law
    rw [State.capture_setCapture]
    split
    · next same =>
      subst same
      exact fewer
    · exact List.Sublist.refl _
  | take c x id granted joined => exact bufferLaw_take granted joined law
  | bank b k may => exact bufferLaw_setBank may law
  | beside same => exact bufferLaw_congr same.banks same.egress same.capture law
  | program p =>
    rw [program_frame]
    exact bufferLaw_congr rfl (fun e => by cases e <;> rfl) (fun c => by cases c <;> rfl) law
  | addRoute d =>
    rw [addRoute_frame]
    exact bufferLaw_congr rfl (fun e => by cases e <;> rfl) (fun c => by cases c <;> rfl) law
  | slots v _ => exact bufferLaw_congr rfl (fun e => by cases e <;> rfl) (fun c => by cases c <;> rfl) law
  | clearRoutes => exact bufferLaw_congr rfl (fun e => by cases e <;> rfl) (fun c => by cases c <;> rfl) law
  | route i e _ _ => exact bufferLaw_congr (by simp) (fun e => by simp) (fun c => by simp) law

/-! ## Counting buffers by bank (R118, R132, R133) -/

/-- The buffers of a list that lie in a bank. -/
def inBank (ids : List BufferId) (b : Fin 8) : Nat := ids.countP fun id => id.bank == b

theorem sum_inBank (ids : List BufferId) : ((List.finRange 8).map (inBank ids)).sum = ids.length := by
  induction ids with
  | nil => rfl
  | cons id ids ih =>
    have one : ((List.finRange 8).map fun b => if id.bank == b then 1 else 0).sum = 1 := by
      generalize id.bank = k
      revert k
      decide
    have split : inBank (id :: ids) = fun b => inBank ids b + if id.bank == b then 1 else 0 := by
      funext b
      exact List.countP_cons
    rw [split, List.sum_map_add, ih, one, List.length_cons]

theorem inBank_le {ids : List BufferId} (nodup : ids.Nodup) (index : ∀ id ∈ ids, id.index < 128) (b : Fin 8) :
    inBank ids b ≤ 128 := by
  have listed : (ids.filter fun id => id.bank == b) ⊆ (List.range 128).map fun i => (⟨b, i⟩ : BufferId) := by
    intro id h
    obtain ⟨here, bank⟩ := List.mem_filter.mp h
    obtain rfl : id.bank = b := by simpa using bank
    exact List.mem_map.mpr ⟨id.index, List.mem_range.mpr (index id here), rfl⟩
  have fewer := ((nodup.filter _).subperm listed).length_le
  simpa [inBank, List.countP_eq_length_filter] using fewer

/-- Buffers that all lie in an owner's banks are at most 128 for each of its banks. -/
theorem length_le_of_owner {banks : Vector Bank 8} {ids : List BufferId} {o : Owner} (nodup : ids.Nodup)
    (index : ∀ id ∈ ids, id.index < 128) (owned : ∀ id ∈ ids, banks[id.bank].owner = o) :
    ids.length ≤ 128 * (List.finRange 8).countP fun b => banks[b].owner == o := by
  have each : ∀ b ∈ List.finRange 8, inBank ids b ≤ if banks[b].owner == o then 128 else 0 := by
    intro b _
    split
    · exact inBank_le nodup index b
    · next foreign =>
      refine Nat.le_zero.mpr (List.countP_eq_zero.mpr fun id here => ?_)
      intro bank
      obtain rfl : id.bank = b := by simpa using bank
      exact foreign (by simpa using owned id here)
  have banksOwned : ∀ l : List (Fin 8), (l.map fun b => if banks[b].owner == o then 128 else 0).sum =
      128 * l.countP fun b => banks[b].owner == o := by
    intro l
    induction l with
    | nil => rfl
    | cons b l ih =>
      rw [List.map_cons, List.sum_cons, ih, List.countP_cons]
      split <;> omega
  calc ids.length = ((List.finRange 8).map (inBank ids)).sum := (sum_inBank ids).symm
    _ ≤ ((List.finRange 8).map fun b => if banks[b].owner == o then 128 else 0).sum := List.sum_le_sum each
    _ = _ := banksOwned _

theorem length_buffers (x : Egress) : x.buffers.length = ((List.finRange 6).map fun n => x.queues[n].length).sum := by
  simp [Egress.buffers, allSlots, List.finRange]

/-- Free and held buffers of every bank make 128, so that all make 1024 (R132). -/
theorem sum_bankFree {s : State} (law : s.BufferLaw) :
    ((List.finRange 8).map s.bankFree).sum + s.heldBuffers.length = 1024 := by
  obtain ⟨nodup, index, _⟩ := law
  have both : ∀ b, s.bankFree b + inBank s.heldBuffers b = 128 := fun b =>
    Nat.sub_add_cancel (inBank_le nodup index b)
  calc ((List.finRange 8).map s.bankFree).sum + s.heldBuffers.length
      = ((List.finRange 8).map fun b => s.bankFree b + inBank s.heldBuffers b).sum := by
        rw [List.sum_map_add, sum_inBank]
    _ = 1024 := by simp only [both]; rfl

/-- Settles O60, by the moves of which every step is made and by counting the buffers of each bank. -/
theorem stepKeepsTheBuffers : Obligations.StepKeepsTheBuffers := by
  refine ⟨fun _ _ law step => step_keeps move_keeps_buffers step law, fun s law => ⟨?total, fun e => ?egress, ?captures⟩⟩
  case total =>
    have all := sum_bankFree law
    simp only [State.heldBuffers, List.length_append, length_buffers] at all
    rw [List.sum_map_add]
    omega
  all_goals obtain ⟨nodup, index, byEgress, byCapture⟩ := law
  case egress =>
    have held : (s.egress e).buffers.Sublist s.heldBuffers := by
      unfold State.heldBuffers
      cases e with
      | a => exact ((List.sublist_append_left _ _).trans (List.sublist_append_left _ _)).trans (List.sublist_append_left _ _)
      | b => exact ((List.sublist_append_right _ _).trans (List.sublist_append_left _ _)).trans (List.sublist_append_left _ _)
    exact length_le_of_owner (nodup.sublist held) (fun id h => index id (held.subset h)) (byEgress e)
  case captures =>
    have held : (s.capture0.buffers ++ s.capture1.buffers).Sublist s.heldBuffers := by
      unfold State.heldBuffers
      exact (List.sublist_append_right _ _).append (List.Sublist.refl _)
    have bound := length_le_of_owner (banks := s.banks) (o := .capture) (nodup.sublist held)
      (fun id h => index id (held.subset h)) (fun id h => by
        rcases List.mem_append.mp h with in0 | in1
        · exact byCapture .c0 id in0
        · exact byCapture .c1 id in1)
    rwa [List.length_append] at bound

end Sys2Proof.Machine
end

section
/-! SUPPORT. The queue of commands, the power-on state, start-up and one tick of the reference (R1, R2, R144). -/

namespace Sys2Proof.Machine

open Sys2Proof

/-! ## The block and its queue -/

/-- Settles O1, by the definition of a step. -/
theorem stepRunsTheFrontCommand : Obligations.StepRunsTheFrontCommand :=
  ⟨fun _ _ _ => rfl, fun s idle => by rw [step, idle]⟩

/-- A request row completes and leaves the queue. -/
theorem exec_completes_of_row {c : Instr} {s : State} {l : Side} {tag : Byte} {r : Request}
    (row : exec c s = .next (s.requestRow l tag r)) : ∃ t, exec c s = .next t ∧ t.pending = s.pending :=
  ⟨_, row, State.requestRow_pending s l tag r⟩

/-- Settles O2, by the command: each answers a next state that keeps the queue. -/
theorem noCommandStopsThePart : Obligations.NoCommandStopsThePart := by
  intro c s
  cases c with
  | powerOnReset => exact ⟨_, rfl, rfl⟩
  | resetRelease strap =>
    refine ⟨_, rfl, ?_⟩
    split <;> rfl
  | pllLock =>
    refine ⟨_, rfl, ?_⟩
    split <;> rfl
  | gainEvaluation i belowFs => exact ⟨_, rfl, State.whenDue_pending _ _ _ (by simp [State.gainEvaluation])⟩
  | clipIntervalEnd i => exact ⟨_, rfl, State.whenDue_pending _ _ _ (by simp)⟩
  | overload i => exact ⟨_, rfl, State.whenDue_pending _ _ _ (by simp [State.overload])⟩
  | overloadHoldExpiry i => exact ⟨_, rfl, State.whenDue_pending _ _ _ (by simp)⟩
  | clippedSample i => exact ⟨_, rfl, State.whenLocked_pending _ _ (by simp)⟩
  | aux1LevelChange aux1 aux0 => exact ⟨_, rfl, rfl⟩
  | mastProtectionTrip => exact ⟨_, rfl, State.whenDue_pending _ _ _ rfl⟩
  | senseMeasurementEnd n belowFs => exact ⟨_, rfl, State.whenDue_pending _ _ _ rfl⟩
  | senseWaitEnd n => exact ⟨_, rfl, State.whenDue_pending _ _ _ rfl⟩
  | syncStructureFound n m g milliHz => exact ⟨_, rfl, State.whenDue_pending _ _ _ rfl⟩
  | syncTimeout n => exact ⟨_, rfl, State.whenDue_pending _ _ _ (State.failAttempt_pending _ _ _)⟩
  | signallingFrameEnd n result milliHz arrivals pp ep order =>
    exact ⟨_, rfl, State.whenDue_pending _ _ _ (State.frameEnd_pending _ _ _ _ _ _ _ _)⟩
  | signalTimeout n => exact ⟨_, rfl, State.whenDue_pending _ _ _ (State.failAttempt_pending _ _ _)⟩
  | windowMoveApplied n => exact ⟨_, rfl, State.whenDue_pending _ _ _ rfl⟩
  | echoTableBuild n arrivals =>
    refine ⟨_, rfl, State.whenDue_pending _ _ _ ?_⟩
    unfold State.echoBuild
    dsimp only
    split <;> simp [State.failAttempt_pending]
  | settleHalfEnd n => exact ⟨_, rfl, State.whenDue_pending _ _ _ rfl⟩
  | countHalfSymbolEnd n errors begun => exact ⟨_, rfl, State.whenDue_pending _ _ _ rfl⟩
  | countHalfEnd n =>
    refine ⟨_, rfl, State.whenDue_pending _ _ _ ?_⟩
    unfold State.endCount
    split
    · rfl
    · split
      · simp
      · split <;> simp [State.failAttempt_pending]
  | packetCompletion n report p first => exact ⟨_, rfl, State.whenDue_pending _ _ _ (State.complete_pending _ _ _ _ _)⟩
  | fecTimeout n => exact ⟨_, rfl, State.whenDue_pending _ _ _ (State.failAttempt_pending _ _ _)⟩
  | holdExpiry n => exact ⟨_, rfl, State.whenDue_pending _ _ _ rfl⟩
  | backoffEnd n => exact ⟨_, rfl, State.whenDue_pending _ _ _ rfl⟩
  | dueSlot e =>
    refine ⟨_, rfl, State.whenDue_pending _ _ _ ?_⟩
    unfold State.takeDue
    split
    · rfl
    · rw [State.dueSlot_pending, State.setEgress_pending]
  | cellPosition l =>
    refine ⟨_, rfl, State.whenDue_pending _ _ _ ?_⟩
    rw [State.arbitrate_pending, State.beginPosition, State.setLink_pending]
  | huntWindow l header => exact ⟨_, rfl, State.whenDue_pending _ _ _ (by simp)⟩
  | presyncHeader l header => exact ⟨_, rfl, State.whenDue_pending _ _ _ (by simp)⟩
  | syncCell l cell =>
    refine ⟨_, rfl, State.whenDue_pending _ _ _ ?_⟩
    unfold State.syncCell
    split
    · unfold State.handleCell
      split
      · rw [State.request_pending, State.setLink_pending]
      · split <;> simp
    · simp [State.failHeader]
  | lossOfSignal l =>
    refine ⟨_, rfl, ?_⟩
    split <;> simp
  | lossFailureCount l => exact ⟨_, rfl, State.whenDue_pending _ _ _ (by simp [State.failHeader])⟩
  | signalReturn l => exact ⟨_, rfl, by simp⟩
  | serviceIntervalEnd => exact ⟨_, rfl, State.whenDue_pending _ _ _ (State.agentPoll_pending _)⟩
  | unknownRequest l tag code => exact ⟨_, rfl, State.whenLocked_pending _ _ (State.request_pending _ _ _ _ _ _)⟩
  | stcTick => exact ⟨_, rfl, State.whenLocked_pending _ _ rfl⟩
  | frontRead | auxSet | auxWrite | auxRead | slotSet | enable | disable | retune | slotRead | routeAdd | routeRemove
  | routeClear | routeRead | bankAssign | bankRead | egressSet | start | stop | egressRead | describe | reset | status
  | alertConfig | statsSnapshot | statsRead | captureStart | captureCancel => exact exec_completes_of_row rfl

/-! ## The power-on state and start-up (R1) -/

theorem slot_reset (n : SlotId) : State.reset.slot n = Slot.initial := slot_powerOn State.reset n

/-- Settles O3, block by block. -/
theorem powerOnValues : Obligations.PowerOnValues := by
  unfold Obligations.PowerOnValues
  intro s
  have inputs : ∀ i, s.input i = RfInput.initial := fun i => by cases i <;> rfl
  have slots : ∀ n, s.slot n = Slot.initial := slot_reset
  have egresses : ∀ e, s.egress e = Egress.initial := fun e => by cases e <;> rfl
  have links : ∀ l, s.link l = LinkUnit.initial := fun l => by cases l <;> rfl
  have captures : ∀ c, s.capture c = CaptureContext.initial := fun c => by cases c <;> rfl
  have free : ∀ b, s.bankFree b = 128 := fun b => by
    have held : s.heldBuffers = [] := heldBuffers_powerOn State.reset
    rw [State.bankFree, State.bankHeld, held]
    rfl
  refine ⟨rfl, fun i => ?_, rfl, rfl, rfl, rfl, rfl, rfl, fun n => ?_, fun i => rfl, rfl, free, fun e => ?_, fun l => ?_,
    rfl, captures, rfl, rfl⟩
  · rw [inputs]
    exact ⟨rfl, rfl, rfl, rfl, rfl⟩
  · rw [slots]
    exact ⟨rfl, rfl, rfl, rfl, rfl, rfl, rfl, rfl, rfl, rfl, rfl, rfl, rfl, rfl⟩
  · rw [egresses]
    exact ⟨rfl, rfl, rfl, rfl, rfl, rfl, rfl, rfl, fun _ => rfl, rfl, rfl, rfl⟩
  · rw [links]
    exact ⟨rfl, rfl, rfl, rfl, rfl, rfl, rfl⟩

/-- Settles O4: each moment of start-up by its own row. -/
theorem resetAndStartUp : Obligations.ResetAndStartUp := by
  refine ⟨fun _ => rfl, fun strap s held => ?_, fun s acquiring => ?_⟩
  · exact congrArg Host.Outcome.next (if_pos held)
  · exact congrArg Host.Outcome.next (if_pos acquiring)

/-! ## One tick (R2) -/

theorem nextElapsed_of_lt {period elapsed : Nat} (below : elapsed + 1 < period) :
    nextElapsed period elapsed = elapsed + 1 ∧ periodEnds period elapsed = false := by
  simp only [nextElapsed, periodEnds, decide_eq_false_iff_not]
  constructor
  · rw [if_neg]
    omega
  · omega

theorem nextElapsed_of_le {period elapsed : Nat} (ends : period ≤ elapsed + 1) :
    nextElapsed period elapsed = 0 ∧ periodEnds period elapsed = true := by
  simp [nextElapsed, periodEnds, ends]

theorem exec_stcTick {s : State} (locked : s.power = .locked) : exec .stcTick s = .next s.tick :=
  congrArg Host.Outcome.next (State.whenLocked_of_locked s s.tick locked)

theorem input_tick (s : State) (i : RfId) :
    s.tick.input i =
      (s.input i).tick (periodEnds Config.ticksPerMs s.time.oneMs) (periodEnds tenMsTicks s.time.tenMs) := by
  cases i <;> rfl

theorem link_tick (s : State) (l : Side) :
    s.tick.link l = (s.link l).tick (periodEnds Config.cellTicks s.time.cellTicks) := by
  cases l <;> rfl

theorem egress_tick (s : State) (e : Side) : s.tick.egress e = (s.egress e).pace (s.time.stc + 1) := by
  cases e <;> rfl

theorem slot_tick (s : State) (n : SlotId) : s.tick.slot n = (s.slot n).tick := by
  simp [State.slot, State.tick]

theorem LinkUnit.positionDue_tick (begins : Bool) (k : LinkUnit) :
    (k.tick begins).positionDue = (k.positionDue || begins) := by
  unfold LinkUnit.tick
  dsimp only
  split
  · split <;> rfl
  · rfl

theorem LinkUnit.tick_frame (begins : Bool) (k : LinkUnit) :
    k.tick begins = { k with
      positionDue := (k.tick begins).positionDue
      lossTicks := (k.tick begins).lossTicks
      lossDue := (k.tick begins).lossDue } := by
  unfold LinkUnit.tick
  dsimp only
  split
  · split <;> rfl
  · rfl

/-- Settles O5, field by field of the tick. -/
theorem tickMovesTimersAlone : Obligations.TickMovesTimersAlone := by
  intro s locked
  refine ⟨s.tick, exec_stcTick locked, rfl, fun last => ?stc, rfl, fun below => ?ms, fun last => ?ms_ends,
    fun below => ?tenMs, fun last => ?tenMs_ends, fun below => ?cell, fun last => ?cell_ends, fun i => ?input,
    fun n => ?slot, rfl, rfl, fun armed low => ?low_run, fun quiet => ?no_run, fun e => ?egress, fun l => ?link,
    rfl, rfl, rfl, rfl, rfl, rfl, rfl, rfl, rfl⟩
  case stc =>
    show s.time.stc + 1 = 0
    rw [last]
    rfl
  case ms =>
    obtain ⟨elapsed, goesOn⟩ := nextElapsed_of_lt (period := Config.ticksPerMs) (elapsed := s.time.oneMs)
      (by simp only [Config.ticksPerMs]; omega)
    exact ⟨elapsed, fun i => by simp [input_tick, RfInput.tick, goesOn]⟩
  case ms_ends =>
    obtain ⟨elapsed, ends⟩ := nextElapsed_of_le (period := Config.ticksPerMs) (elapsed := s.time.oneMs)
      (by simp only [Config.ticksPerMs]; omega)
    exact ⟨elapsed, fun i => by simp [input_tick, RfInput.tick, ends]⟩
  case tenMs =>
    obtain ⟨elapsed, goesOn⟩ := nextElapsed_of_lt (period := tenMsTicks) (elapsed := s.time.tenMs)
      (by simp only [Config.ticksPerMs, tenMsTicks]; omega)
    exact ⟨elapsed, fun i => by simp [input_tick, RfInput.tick, goesOn]⟩
  case tenMs_ends =>
    obtain ⟨elapsed, ends⟩ := nextElapsed_of_le (period := tenMsTicks) (elapsed := s.time.tenMs)
      (by simp only [Config.ticksPerMs, tenMsTicks]; omega)
    exact ⟨elapsed, fun i => by simp [input_tick, RfInput.tick, ends]⟩
  case cell =>
    obtain ⟨elapsed, goesOn⟩ := nextElapsed_of_lt (period := Config.cellTicks) (elapsed := s.time.cellTicks)
      (by simp only [Config.cellTicks]; omega)
    exact ⟨elapsed, fun l => by rw [link_tick, LinkUnit.positionDue_tick, goesOn, Bool.or_false]⟩
  case cell_ends =>
    obtain ⟨elapsed, ends⟩ := nextElapsed_of_le (period := Config.cellTicks) (elapsed := s.time.cellTicks)
      (by simp only [Config.cellTicks]; omega)
    exact ⟨elapsed, fun l => by rw [link_tick, LinkUnit.positionDue_tick, ends, Bool.or_true]⟩
  case input =>
    rw [input_tick]
    rfl
  case slot =>
    rw [slot_tick]
    refine ⟨rfl, fun k running => ?_, fun idle => ?_, rfl⟩
    · simp only [Slot.tick, running, tickPhase]
    · cases phase : (s.slot n).phase with
      | ticks k => exact absurd phase (idle k)
      | stopped | frames _ => simp only [Slot.tick, phase, tickPhase]
  case low_run => simp [State.tick, AuxUnit.tick, AuxUnit.lowRunning, armed, low, Config.tripTicks]
  case no_run => rcases quiet with unarmed | high <;> simp [State.tick, AuxUnit.tick, AuxUnit.lowRunning, *]
  case egress =>
    rw [egress_tick]
    unfold Egress.pace
    refine ⟨?frame, fun running below => ?adds, fun running full => ?falls_due, fun idle => ?idle⟩
    case frame =>
      split
      · split <;> rfl
      · rfl
    case adds =>
      rw [if_pos running, if_neg (Nat.not_le.mpr below)]
      exact ⟨rfl, rfl⟩
    case falls_due =>
      rw [if_pos running, if_pos full]
      exact ⟨Nat.sub_add_cancel full, rfl⟩
    case idle => rw [if_neg idle]
  case link =>
    rw [link_tick]
    refine ⟨LinkUnit.tick_frame _ _, fun lost sync below => ?counts, fun lost sync full => ?full, fun fine => ?fine⟩
    case counts =>
      have room : ¬Config.cellTicks ≤ (s.link l).lossTicks + 1 := by simp only [Config.cellTicks]; omega
      simp [LinkUnit.tick, lost, sync, room]
    case full =>
      have ends : Config.cellTicks ≤ (s.link l).lossTicks + 1 := by simp only [Config.cellTicks]; omega
      simp [LinkUnit.tick, lost, sync, ends]
    case fine => rcases fine with present | notSync <;> simp [LinkUnit.tick, *]

end Sys2Proof.Machine
end

section
/-! SUPPORT. The front end: gain loops, overload, auxiliary lines, mast protection; and DESCRIBE (R3 to R15, R184). -/

namespace Sys2Proof.Machine

open Sys2Proof

/-! ## The gain loop and the overload (R4 to R7) -/

/-- What an evaluation leaves: the mean is stored, the gain and the limit flag are those of the step. -/
theorem RfInput.evaluate_frame (belowFs : Nat) (x : RfInput) :
    (x.evaluate belowFs).1 =
      { x with mean := storedLevel belowFs, gain := (x.evaluate belowFs).1.gain, evalDue := false } := by
  unfold RfInput.evaluate RfInput.stepUp RfInput.stepDown
  dsimp only
  split
  · split
    · split <;> rfl
    · rfl
  · split
    · split <;> rfl
    · rfl

/-- The stored mean is below the window of R4. -/
theorem storedLevel_low {belowFs : Nat} : storedLevel belowFs < -150 ↔ 150 < belowFs := by
  unfold storedLevel
  omega

/-- The stored mean is above the window of R4. -/
theorem storedLevel_high {belowFs : Nat} : -90 < storedLevel belowFs ↔ belowFs < 90 := by
  unfold storedLevel
  omega

/-- Settles O6: the evaluation by the mean's place beside the window, the other rows by their own steps. -/
theorem gainLoopAndOverload : Obligations.GainLoopAndOverload := by
  refine ⟨fun i belowFs s locked due => ?evaluation, fun i s locked => ?clip, fun i s locked due => ?interval,
    fun i s locked due => ?overload, fun i s locked expired => ?expiry⟩
  case evaluation =>
    refine ⟨((s.input i).evaluate belowFs).1.gain, ((s.input i).evaluate belowFs).2, ?row, fun low free room => ?up,
      fun low free full => ?limit, fun low held => ?held, fun notHigh notLow => ?inside, fun high room => ?down,
      fun high bottom => ?bottom⟩
    case row =>
      have frame := RfInput.evaluate_frame belowFs (s.input i)
      calc exec (.gainEvaluation i belowFs) s
          = .next (s.gainEvaluation i belowFs) :=
            congrArg Host.Outcome.next (State.whenDue_of_due s _ _ locked due)
        _ = _ := by
            unfold State.gainEvaluation
            conv_lhs => rw [frame]
            rfl
    case up => simp [RfInput.evaluate, storedLevel_low, low, free, RfInput.stepUp, room]
    case limit => simp [RfInput.evaluate, storedLevel_low, low, free, RfInput.stepUp, Nat.not_lt.mpr full]
    case held => simp [RfInput.evaluate, storedLevel_low, low, held]
    case inside =>
      simp [RfInput.evaluate, storedLevel_low, storedLevel_high, Nat.not_lt.mpr notHigh, Nat.not_lt.mpr notLow]
    case down =>
      have notLow : ¬150 < belowFs := by omega
      simp [RfInput.evaluate, storedLevel_low, storedLevel_high, notLow, high, RfInput.stepDown, room]
    case bottom =>
      have notLow : ¬150 < belowFs := by omega
      simp [RfInput.evaluate, storedLevel_low, storedLevel_high, notLow, high, RfInput.stepDown, bottom]
  case clip =>
    have seventeenth : ∀ n : Nat, (min (n + 1) Config.count16Max == Config.overloadClips) = decide (n = 16) := fun n => by
      rw [Bool.eq_iff_iff, beq_iff_eq, decide_eq_true_iff]
      simp only [Config.count16Max, Config.overloadClips]
      omega
    calc exec (.clippedSample i) s
        = .next (s.setInput i (s.input i).clip) := congrArg Host.Outcome.next (State.whenLocked_of_locked s _ locked)
      _ = _ := by
          unfold RfInput.clip
          dsimp only
          rw [seventeenth]
  case interval => exact congrArg Host.Outcome.next (State.whenDue_of_due s _ _ locked due)
  case overload => exact congrArg Host.Outcome.next (State.whenDue_of_due s _ _ locked due)
  case expiry => exact congrArg Host.Outcome.next (State.whenDue_of_due s _ _ locked (beq_iff_eq.mpr expired))

/-- Settles O7, by the reply of the owning rule. -/
theorem frontReadReports : Obligations.FrontReadReports := by
  intro l tag s serves
  obtain ⟨t, ran, replied, same⟩ := served (c := .frontRead l tag) serves rfl
  refine ⟨t, ran, ?_, same⟩
  have data : (s.frontRead).data = beBytes 4 s.time.stc.toNat ++ s.rf0.report ++ s.rf1.report := rfl
  simp only [State.applyRequest, data, RfInput.report, msLeft, Config.ticksPerMs, List.append_assoc] at replied ⊢
  exact replied

/-- Settles O49, by the reply of the owning rule. -/
theorem describeReturnsThePart : Obligations.DescribeReturnsThePart := by
  intro l tag s serves
  obtain ⟨t, ran, replied, same⟩ := served (c := .describe l tag) serves rfl
  refine ⟨t, ran, same, ?_⟩
  have data : (s.describe l).data = [0x17, 0xFE, 1, 6, 2, 2, 1, 0, 8, 128, 2, (if l = .a then 0 else 1),
      (if s.time.reference = .crystal then 0 else 1)] := by
    unfold State.describe State.accept
    cases l <;> cases s.time.reference <;> rfl
  rw [← data]
  exact replied

/-! ## The auxiliary lines (R10 to R15) -/

theorem AuxUnit.armed_iff (x : AuxUnit) : x.armed = true ↔ x.protection = true ∧ x.mode1 = .input := by
  simp [AuxUnit.armed]

theorem AuxUnit.lowRunning_iff (x : AuxUnit) : x.lowRunning = true ↔ x.armed = true ∧ x.pin1 = false := by
  simp [AuxUnit.lowRunning]

/-- The low-run timer goes on through a run that was under way and still is. -/
theorem AuxUnit.lowRun_settle_of_running {before x : AuxUnit} (was : before.lowRunning = true)
    (is : x.lowRunning = true) : (before.settle x).lowRun = before.lowRun := by
  simp [AuxUnit.settle, was, is]

/-- The low-run timer stands at 0 when no run was under way or none is. -/
theorem AuxUnit.lowRun_settle_of_idle {before x : AuxUnit} (idle : before.lowRunning = false ∨ x.lowRunning = false) :
    (before.settle x).lowRun = 0 := by
  rcases idle with was | is <;> simp [AuxUnit.settle, *]

/-- No low run is under way while protection is not armed or AUX1 is high. -/
theorem AuxUnit.lowRunning_false {x : AuxUnit} (quiet : x.armed = false ∨ x.pin1 = true) : x.lowRunning = false := by
  rcases quiet with unarmed | high <;> simp [AuxUnit.lowRunning, *]

/-- An armed AUX1 is an input, so its pin follows the board's drive and no latch. -/
theorem AuxUnit.pin1_of_armed {x : AuxUnit} (armed : x.armed = true) : x.pin1 = (x.drive1 != .low) := by
  obtain ⟨-, input⟩ := x.armed_iff.mp armed
  simp [AuxUnit.pin1, input, pinLevel]

/-- No latch acts on an armed AUX1: the modes, the protection and the drives alone decide whether a low run is under
way. -/
theorem AuxUnit.lowRunning_latches (x : AuxUnit) (latch0 latch1 : Bool) :
    ({ x with latch0 := latch0, latch1 := latch1 } : AuxUnit).lowRunning = x.lowRunning := by
  have armed : ({ x with latch0 := latch0, latch1 := latch1 } : AuxUnit).armed = x.armed := rfl
  unfold AuxUnit.lowRunning
  cases isArmed : x.armed with
  | false => simp [armed, isArmed]
  | true => rw [AuxUnit.pin1_of_armed isArmed, AuxUnit.pin1_of_armed (armed.trans isArmed), armed, isArmed]

/-- Settles O8, by the reply of the owning rule. -/
theorem auxReadReports : Obligations.AuxReadReports := by
  intro l tag s serves
  obtain ⟨t, ran, replied, same⟩ := served (c := .auxRead l tag) serves rfl
  exact ⟨t, ran, replied, same⟩

/-- Settles O9: the table of R10 by its rows, AUX_SET by whether its values are in range. -/
theorem auxSetReplacesModes : Obligations.AuxSetReplacesModes := by
  refine ⟨fun latch => ⟨rfl, rfl, rfl⟩, fun drive => rfl, rfl, rfl, rfl, fun latch drive => rfl,
    fun x => ⟨x.armed_iff, rfl, rfl⟩, fun l tag m0 m1 pr s serves => ?_⟩
  obtain ⟨t, ran, replied, same⟩ := served (c := .auxSet l tag m0 m1 pr) serves rfl
  refine ⟨t, ran, fun a b p mode0 mode1 protection => ?accepted, fun bad => ?refused⟩
  case accepted =>
    have answer : s.applyRequest l (.auxSet m0 m1 pr) =
        ({ s with aux := s.aux.configure a b p } : State).accept (s.aux.configure a b p).contents := by
      simp only [State.applyRequest, State.auxSet, mode0, mode1, protection]
    rw [answer] at replied same
    have aux : t.aux = s.aux.configure a b p := by rw [same]; rfl
    refine ⟨?_, ?_, fun idle => ?_, fun was is low => ?_, ?_⟩
    · rw [aux]
      exact replied
    · rw [aux]
      rfl
    · rw [aux] at idle ⊢
      apply AuxUnit.lowRun_settle_of_idle
      rcases idle with unarmed | high | unarmed
      · exact .inl (AuxUnit.lowRunning_false (.inl unarmed))
      · exact .inl (AuxUnit.lowRunning_false (.inr high))
      · exact .inr (AuxUnit.lowRunning_false (.inl unarmed))
    · rw [aux] at is ⊢
      have still : ({ s.aux with mode0 := a, mode1 := b, protection := p } : AuxUnit).pin1 = false := by
        rw [← low, AuxUnit.pin1_of_armed was]
        exact AuxUnit.pin1_of_armed is
      exact AuxUnit.lowRun_settle_of_running (s.aux.lowRunning_iff.mpr ⟨was, low⟩)
        ((AuxUnit.lowRunning_iff _).mpr ⟨is, still⟩)
    · rw [same]
      rfl
  case refused =>
    have answer : s.applyRequest l (.auxSet m0 m1 pr) = s.refuse .badArg [] := by
      show s.auxSet m0 m1 pr = _
      unfold State.auxSet
      split
      · next mode0 mode1 protection => simp [mode0, mode1, protection] at bad
      · rfl
    rw [answer] at replied same
    exact ⟨replied, same⟩

theorem flagOf_isSome (b : Byte) : (flagOf b).isSome = true ↔ b.toNat < 2 := by
  revert b
  decide +kernel

/-- The parameters that AUX_WRITE accepts. -/
theorem auxWriteOk_iff (mask v0 v1 : Byte) : auxWriteOk mask v0 v1 = true ↔
    mask.toNat < 4 ∧ (mask.getLsbD 0 = true → v0.toNat < 2) ∧ (mask.getLsbD 1 = true → v1.toNat < 2) := by
  unfold auxWriteOk
  rw [Bool.and_eq_true, Bool.and_eq_true, decide_eq_true_iff, Bool.or_eq_true, Bool.or_eq_true, flagOf_isSome,
    flagOf_isSome, and_assoc]
  cases mask.getLsbD 0 <;> cases mask.getLsbD 1 <;> simp

/-- Settles O10, by whether the parameters are in range. -/
theorem auxWriteLoadsBothLatches : Obligations.AuxWriteLoadsBothLatches := by
  intro l tag mask v0 v1 s serves
  obtain ⟨t, ran, replied, same⟩ := served (c := .auxWrite l tag mask v0 v1) serves rfl
  have answer : s.applyRequest l (.auxWrite mask v0 v1) = s.auxWrite mask v0 v1 := rfl
  refine ⟨t, ran, fun inRange => ?accepted, fun bad => ?refused⟩
  case accepted =>
    rw [answer, State.auxWrite, if_pos ((auxWriteOk_iff mask v0 v1).mpr inRange)] at replied same
    have aux : t.aux = s.aux.load mask v0 v1 := by rw [same]; rfl
    refine ⟨?_, ?_, fun armed low => ?_, fun quiet => ?_, ?_⟩
    · rw [aux]
      exact replied
    · rw [aux]
      rfl
    · rw [aux]
      have was := s.aux.lowRunning_iff.mpr ⟨armed, low⟩
      exact AuxUnit.lowRun_settle_of_running was ((s.aux.lowRunning_latches _ _).trans was)
    · rw [aux]
      exact AuxUnit.lowRun_settle_of_idle (.inl (AuxUnit.lowRunning_false quiet))
    · rw [same]
      rfl
  case refused =>
    have outOfRange : ¬auxWriteOk mask v0 v1 = true := fun ok => by
      obtain ⟨small, value0, value1⟩ := (auxWriteOk_iff mask v0 v1).mp ok
      rcases bad with large | ⟨named, large⟩ | ⟨named, large⟩
      · omega
      · exact absurd (value0 named) (by omega)
      · exact absurd (value1 named) (by omega)
    rw [answer, State.auxWrite, if_neg outOfRange] at replied same
    exact ⟨replied, same⟩

/-- Settles O11: the drives by the settling of the low-run timer, the trip by its row. -/
theorem mastProtectionTrips : Obligations.MastProtectionTrips := by
  refine ⟨fun aux1 aux0 s => ⟨_, rfl, rfl, fun idle => ?idle, fun armed low still => ?running⟩,
    fun s locked armed low full => ?trip⟩
  case idle =>
    apply AuxUnit.lowRun_settle_of_idle
    rcases idle with high | high | unarmed
    · exact .inl (AuxUnit.lowRunning_false (.inr high))
    · exact .inr (AuxUnit.lowRunning_false (.inr high))
    · exact .inl (AuxUnit.lowRunning_false (.inl unarmed))
  case running =>
    exact AuxUnit.lowRun_settle_of_running (s.aux.lowRunning_iff.mpr ⟨armed, low⟩)
      ((AuxUnit.lowRunning_iff _).mpr ⟨armed, still⟩)
  case trip =>
    have due : s.aux.tripDue = true := by
      simp only [AuxUnit.tripDue, s.aux.lowRunning_iff.mpr ⟨armed, low⟩, Config.tripTicks, full, decide_true,
        Bool.and_self]
    exact congrArg Host.Outcome.next (State.whenDue_of_due s _ _ locked due)

end Sys2Proof.Machine
end

section
/-! SUPPORT. SLOT_SET (R17 to R25): what it writes, what its reply says of the clamped fields, and what each check
refuses. -/

namespace Sys2Proof.Machine

open Sys2Proof

/-! ## The codes of a SLOT_SET, read and written back (R173) -/

theorem isSome_rfOf (b : Byte) : (rfOf b).isSome = true ↔ b.toNat ≤ 1 := by revert b; decide +kernel
theorem isSome_bandwidthOf (b : Byte) : (bandwidthOf b).isSome = true ↔ 6 ≤ b.toNat ∧ b.toNat ≤ 8 := by
  revert b; decide +kernel
theorem isSome_modeOf (b : Byte) : (modeOf b).isSome = true ↔ b.toNat ≤ 2 := by revert b; decide +kernel
theorem isSome_guardOf (b : Byte) : (guardOf b).isSome = true ↔ b.toNat ≤ 4 := by revert b; decide +kernel
theorem isSome_constellationOf (b : Byte) : (constellationOf b).isSome = true ↔ b.toNat ≤ 3 := by
  revert b; decide +kernel
theorem isSome_rateOf (b : Byte) : (rateOf b).isSome = true ↔ b.toNat ≤ 5 := by revert b; decide +kernel
theorem isSome_policyOf (b : Byte) : (policyOf b).isSome = true ↔ b.toNat ≤ 1 := by revert b; decide +kernel

theorem rfCode_rfOf {b : Byte} (ok : (rfOf b).isSome = true) (r : RfId) : rfCode ((rfOf b).getD r) = b := by
  unfold rfOf at *
  split_ifs at * <;> simp_all [rfCode]

theorem bandwidthCode_bandwidthOf {b : Byte} (ok : (bandwidthOf b).isSome = true) (r : Bandwidth) :
    bandwidthCode ((bandwidthOf b).getD r) = b := by
  unfold bandwidthOf at *
  split_ifs at * <;> simp_all [bandwidthCode]

theorem modeCode_modeOf {b : Byte} (ok : (modeOf b).isSome = true) (r : Option CarrierMode) :
    autoCode modeCode ((modeOf b).getD r) = b := by
  unfold modeOf at *
  split_ifs at * <;> simp_all [autoCode, modeCode]

theorem guardCode_guardOf {b : Byte} (ok : (guardOf b).isSome = true) (r : Option Guard) :
    autoCode guardCode ((guardOf b).getD r) = b := by
  unfold guardOf at *
  split_ifs at * <;> simp_all [autoCode, guardCode]

theorem constellationCode_constellationOf {b : Byte} (ok : (constellationOf b).isSome = true)
    (r : Option Constellation) : autoCode constellationCode ((constellationOf b).getD r) = b := by
  unfold constellationOf at *
  split_ifs at * <;> simp_all [autoCode, constellationCode]

theorem rateCode_rateOf {b : Byte} (ok : (rateOf b).isSome = true) (r : Option CodeRate) :
    autoCode rateCode ((rateOf b).getD r) = b := by
  unfold rateOf at *
  split_ifs at * <;> simp_all [autoCode, rateCode]

theorem policyCode_policyOf {b : Byte} (ok : (policyOf b).isSome = true) (r : ErrorPolicy) :
    policyCode ((policyOf b).getD r) = b := by
  unfold policyOf at *
  split_ifs at * <;> simp_all [policyCode]

/-! ## The value check of each field (R22) -/

theorem setFirstBad_none {p : SlotSetParams} {oks : List Bool} {k : Nat} :
    setFirstBad p k oks = none ↔ ∀ i, setHas p (k + i) = true → oks[i]? ≠ some false := by
  induction oks generalizing k with
  | nil => simp [setFirstBad]
  | cons ok oks ih =>
    have shift : (∀ i, setHas p (k + i) = true → (ok :: oks)[i]? ≠ some false) ↔
        (setHas p k = true → ok ≠ false) ∧ ∀ i, setHas p (k + 1 + i) = true → oks[i]? ≠ some false := by
      rw [← Nat.and_forall_add_one]
      simp only [List.getElem?_cons_zero, List.getElem?_cons_succ, Nat.add_zero, Option.some.injEq, ne_eq,
        Nat.add_assoc, Nat.add_comm 1]
    rw [shift, ← ih, setFirstBad]
    by_cases bad : setHas p k = true ∧ ok = false
    · simp [bad.1, bad.2]
    · have passes : (setHas p k && !ok) = false := by simpa using bad
      have good : setHas p k = true → ok ≠ false := fun present fails => bad ⟨present, fails⟩
      rw [if_neg (by simp [passes])]
      exact (and_iff_right good).symm

/-- The first present field whose check fails, and none before it. -/
theorem setFirstBad_of_first {p : SlotSetParams} {oks : List Bool} {k i : Nat} (present : setHas p (k + i) = true)
    (fails : oks[i]? = some false) (first : ∀ j, j < i → setHas p (k + j) = true → oks[j]? ≠ some false) :
    setFirstBad p k oks = some (k + i) := by
  induction oks generalizing k i with
  | nil => simp at fails
  | cons ok oks ih =>
    rw [setFirstBad]
    cases i with
    | zero =>
      rw [List.getElem?_cons_zero, Option.some.injEq] at fails
      rw [Nat.add_zero] at present ⊢
      simp [present, fails]
    | succ i =>
      have passes : ¬((setHas p k && !ok) = true) := fun bad => by
        rw [Bool.and_eq_true, Bool.not_eq_true'] at bad
        exact first 0 (Nat.succ_pos i) bad.1 (by rw [List.getElem?_cons_zero, bad.2])
      have place : k + 1 + i = k + (i + 1) := by omega
      rw [if_neg passes, ← place]
      refine ih (by rwa [place]) (by simpa using fails) fun j below present fails => ?_
      exact first (j + 1) (by omega) (by rwa [← Nat.add_assoc, Nat.add_right_comm]) (by simpa using fails)

theorem frequencyOk_iff (f : BitVec 24) :
    frequencyOk f = true ↔ f.toNat = 0 ∨ 174000 ≤ f.toNat ∧ f.toNat ≤ 862000 := by
  rw [frequencyOk, decide_eq_true_iff, ← BitVec.toNat_inj]
  rfl

/-- The check of field k fails exactly when the field carries a value out of its range. -/
theorem valueCheck_fails_iff (p : SlotSetParams) {k : Nat} (low : 1 ≤ k) (high : k ≤ 16) :
    (setValueChecks p)[k - 1]? = some false ↔ FieldBad p k := by
  have outside {ok : Option Bool} : ok = some false ↔ ¬(ok.getD true = true) := by cases ok <;> simp
  rw [outside]
  interval_cases k <;> simp only [setValueChecks, FieldBad, Nat.reduceSub, List.getElem?_cons_zero,
    List.getElem?_cons_succ, Option.getD_some, isSome_rfOf, isSome_bandwidthOf, isSome_modeOf, isSome_guardOf,
    isSome_constellationOf, isSome_rateOf, isSome_policyOf, flagOf_isSome, frequencyOk_iff,
    decide_eq_true_iff, not_true_eq_false] <;> omega

/-- A present field of an accepted SLOT_SET passed its check. -/
theorem valueCheck_of_shape {p : SlotSetParams} (shape : setBadShape p = none) (i : Nat)
    (present : p.present.getLsbD i = true) : (setValueChecks p)[i]? ≠ some false := by
  obtain ⟨-, -, values⟩ := setBadShape_none.mp shape
  refine setFirstBad_none.mp values i ?_
  rwa [setHas, Nat.add_sub_cancel_left]

/-! ## The shape of a SLOT_SET (R22) -/

theorem maskOk_iff (mask : Byte) : maskOk mask = true ↔ ¬(mask.toNat = 0 ∨ 64 ≤ mask.toNat) := by
  rw [maskOk, decide_eq_true_iff]
  omega

/-- The second check of R22: a field of the pair for more than one slot. -/
def pairShared (p : SlotSetParams) : Prop :=
  (p.present.getLsbD 0 = true ∨ p.present.getLsbD 1 = true) ∧
    ∃ n m : SlotId, n ≠ m ∧ p.mask.getLsbD n.val = true ∧ p.mask.getLsbD m.val = true

theorem pairShared_iff (p : SlotSetParams) :
    pairShared p ↔ (decide (1 < (maskSlots p.mask).length) && (setHas p 1 || setHas p 2)) = true := by
  rw [Bool.and_eq_true, Bool.or_eq_true, decide_eq_true_iff, one_lt_maskSlots, pairShared, and_comm]
  rfl

theorem setBadShape_of_mask {p : SlotSetParams} (bad : p.mask.toNat = 0 ∨ 64 ≤ p.mask.toNat) :
    setBadShape p = some [1, 0] := by
  have fails : maskOk p.mask = false := by
    rw [← Bool.not_eq_true, maskOk_iff]
    exact not_not.mpr bad
  rw [setBadShape, fails]
  rfl

theorem setBadShape_of_pair {p : SlotSetParams} (mask : ¬(p.mask.toNat = 0 ∨ 64 ≤ p.mask.toNat))
    (shared : pairShared p) : setBadShape p = some [2, 0] := by
  rw [setBadShape, (maskOk_iff _).mpr mask, (pairShared_iff p).mp shared]
  rfl

theorem setBadShape_of_values {p : SlotSetParams} (mask : ¬(p.mask.toNat = 0 ∨ 64 ≤ p.mask.toNat))
    (single : ¬pairShared p) :
    setBadShape p = (setFirstBad p 1 (setValueChecks p)).map fun k => [3, BitVec.ofNat 8 k] := by
  have passes := Bool.eq_false_iff.mpr (mt (pairShared_iff p).mpr single)
  rw [setBadShape, (maskOk_iff _).mpr mask, passes]
  rfl

/-- The first present field that carries a value out of its range. -/
theorem setFirstBad_of_field {p : SlotSetParams} {k : Nat}
    (bad : 1 ≤ k ∧ k ≤ 16 ∧ p.present.getLsbD (k - 1) = true ∧ FieldBad p k)
    (first : ∀ j, j < k → ¬(1 ≤ j ∧ j ≤ 16 ∧ p.present.getLsbD (j - 1) = true ∧ FieldBad p j)) :
    setFirstBad p 1 (setValueChecks p) = some k := by
  obtain ⟨low, high, present, outOfRange⟩ := bad
  have place : 1 + (k - 1) = k := by omega
  rw [← place]
  refine setFirstBad_of_first (by rwa [place]) ((valueCheck_fails_iff p low high).mpr outOfRange)
    fun j below present fails => ?_
  have inRange : 1 ≤ 1 + j ∧ 1 + j ≤ 16 := by omega
  have check : (setValueChecks p)[1 + j - 1]? = some false := by rwa [Nat.add_sub_cancel_left]
  exact first (1 + j) (by omega) ⟨inRange.1, inRange.2, present, (valueCheck_fails_iff p inRange.1 inRange.2).mp check⟩

theorem setFirstBad_of_inRange {p : SlotSetParams}
    (good : ∀ k, ¬(1 ≤ k ∧ k ≤ 16 ∧ p.present.getLsbD (k - 1) = true ∧ FieldBad p k)) :
    setFirstBad p 1 (setValueChecks p) = none := by
  refine setFirstBad_none.mpr fun i present fails => ?_
  have inList : i < 16 := by
    obtain ⟨bound, -⟩ := List.getElem?_eq_some_iff.mp fails
    exact bound
  have check : (setValueChecks p)[1 + i - 1]? = some false := by rwa [Nat.add_sub_cancel_left]
  exact good (1 + i) ⟨by omega, by omega, present, (valueCheck_fails_iff p (by omega) (by omega)).mp check⟩

/-! ## What an accepted SLOT_SET writes and reports (R18, R25) -/

theorem clampThreshold_eq (b : Byte) :
    clampThreshold b = if b.toInt < -60 then -60 else if 0 < b.toInt then 0 else b.toInt := by
  unfold clampThreshold
  split_ifs <;> omega

theorem clampCapture_eq (b : Byte) :
    clampCapture b = if b.toNat < 2 then 2 else if 128 < b.toNat then 128 else b.toNat := by
  unfold clampCapture
  split_ifs <;> omega

theorem clampHold_eq (h : BitVec 16) : clampHold h = if 2000 < h.toNat then 2000 else h.toNat := by
  unfold clampHold
  split_ifs <;> omega

/-- An absent field stays as it was. -/
theorem setWrite_absent (p : SlotSetParams) (r : TuningRecord) :
    (p.present.getLsbD 0 = false → (setWrite p r).input = r.input) ∧
    (p.present.getLsbD 1 = false → (setWrite p r).frequency = r.frequency) ∧
    (p.present.getLsbD 2 = false → (setWrite p r).bandwidth = r.bandwidth) ∧
    (p.present.getLsbD 3 = false → (setWrite p r).mode = r.mode) ∧
    (p.present.getLsbD 4 = false → (setWrite p r).guardFraction = r.guardFraction) ∧
    (p.present.getLsbD 5 = false → (setWrite p r).constellation = r.constellation) ∧
    (p.present.getLsbD 6 = false → (setWrite p r).rate = r.rate) ∧
    (p.present.getLsbD 7 = false → (setWrite p r).cellId = r.cellId) ∧
    (p.present.getLsbD 8 = false → (setWrite p r).threshold = r.threshold) ∧
    (p.present.getLsbD 9 = false → (setWrite p r).dwell = r.dwell) ∧
    (p.present.getLsbD 10 = false → (setWrite p r).pilotLimit = r.pilotLimit) ∧
    (p.present.getLsbD 11 = false → (setWrite p r).candidateLimit = r.candidateLimit) ∧
    (p.present.getLsbD 12 = false → (setWrite p r).captureThreshold = r.captureThreshold) ∧
    (p.present.getLsbD 13 = false → (setWrite p r).holdMs = r.holdMs) ∧
    (p.present.getLsbD 14 = false → (setWrite p r).burstLimit = r.burstLimit) ∧
    (p.present.getLsbD 15 = false → (setWrite p r).policy = r.policy) := by
  have unmarked {k : Nat} (absent : p.present.getLsbD k = false) : ¬setHas p (k + 1) = true := by
    rw [setHas, Nat.add_sub_cancel, absent]
    exact Bool.false_ne_true
  refine ⟨fun a => ?_, fun a => ?_, fun a => ?_, fun a => ?_, fun a => ?_, fun a => ?_, fun a => ?_, fun a => ?_,
    fun a => ?_, fun a => ?_, fun a => ?_, fun a => ?_, fun a => ?_, fun a => ?_, fun a => ?_, fun a => ?_⟩ <;>
  exact if_neg (unmarked a)

/-- A present field takes its value; the clamped ones take the nearest limit. -/
theorem setWrite_present (p : SlotSetParams) (r : TuningRecord) :
    (p.present.getLsbD 1 = true → p.frequency ≠ 0 → (setWrite p r).frequency = some p.frequency.toNat) ∧
    (p.present.getLsbD 1 = true → p.frequency = 0 → (setWrite p r).frequency = none) ∧
    (p.present.getLsbD 8 = true → (setWrite p r).threshold =
      if p.threshold.toInt < -60 then -60 else if 0 < p.threshold.toInt then 0 else p.threshold.toInt) ∧
    (p.present.getLsbD 12 = true → (setWrite p r).captureThreshold =
      if p.captureThreshold.toNat < 2 then 2
      else if 128 < p.captureThreshold.toNat then 128 else p.captureThreshold.toNat) ∧
    (p.present.getLsbD 13 = true → (setWrite p r).holdMs = if 2000 < p.holdMs.toNat then 2000 else p.holdMs.toNat) := by
  refine ⟨fun present set => ?_, fun present unset => ?_, fun present => ?_, fun present => ?_, fun present => ?_⟩
  · exact (if_pos present).trans (if_neg set)
  · exact (if_pos present).trans (if_pos unset)
  · exact (if_pos present).trans (clampThreshold_eq _)
  · exact (if_pos present).trans (clampCapture_eq _)
  · exact (if_pos present).trans (clampHold_eq _)

/-- A field read by its code and accepted reads back as the code that was sent. -/
theorem setWrite_codes (p : SlotSetParams) (r : TuningRecord) (shape : setBadShape p = none) :
    (p.present.getLsbD 0 = true → rfCode (setWrite p r).input = p.input) ∧
    (p.present.getLsbD 2 = true → bandwidthCode (setWrite p r).bandwidth = p.bandwidth) ∧
    (p.present.getLsbD 3 = true → autoCode modeCode (setWrite p r).mode = p.mode) ∧
    (p.present.getLsbD 4 = true → autoCode guardCode (setWrite p r).guardFraction = p.guardFraction) ∧
    (p.present.getLsbD 5 = true → autoCode constellationCode (setWrite p r).constellation = p.constellation) ∧
    (p.present.getLsbD 6 = true → autoCode rateCode (setWrite p r).rate = p.rate) ∧
    (p.present.getLsbD 7 = true → (setWrite p r).cellId = if p.cellPresent = 0 then none else some p.cellId) ∧
    (p.present.getLsbD 9 = true → (setWrite p r).dwell = p.dwell.toNat) ∧
    (p.present.getLsbD 10 = true → (setWrite p r).pilotLimit = p.pilotLimit.toNat) ∧
    (p.present.getLsbD 11 = true → (setWrite p r).candidateLimit = p.candidateLimit.toNat) ∧
    (p.present.getLsbD 14 = true → (setWrite p r).burstLimit = p.burstLimit.toNat) ∧
    (p.present.getLsbD 15 = true → policyCode (setWrite p r).policy = p.policy) := by
  have passes {i : Nat} {ok : Bool} (at_i : (setValueChecks p)[i]? = some ok) (present : p.present.getLsbD i = true) :
      ok = true := by
    have notFalse := valueCheck_of_shape shape i present
    rw [at_i] at notFalse
    simpa using notFalse
  refine ⟨fun present => ?_, fun present => ?_, fun present => ?_, fun present => ?_, fun present => ?_,
    fun present => ?_, fun present => if_pos present, fun present => if_pos present, fun present => if_pos present,
    fun present => if_pos present, fun present => if_pos present, fun present => ?_⟩
  · exact (congrArg _ (if_pos present)).trans (rfCode_rfOf (passes (i := 0) rfl present) _)
  · exact (congrArg _ (if_pos present)).trans (bandwidthCode_bandwidthOf (passes (i := 2) rfl present) _)
  · exact (congrArg _ (if_pos present)).trans (modeCode_modeOf (passes (i := 3) rfl present) _)
  · exact (congrArg _ (if_pos present)).trans (guardCode_guardOf (passes (i := 4) rfl present) _)
  · exact (congrArg _ (if_pos present)).trans (constellationCode_constellationOf (passes (i := 5) rfl present) _)
  · exact (congrArg _ (if_pos present)).trans (rateCode_rateOf (passes (i := 6) rfl present) _)
  · exact (congrArg _ (if_pos present)).trans (policyCode_policyOf (passes (i := 15) rfl present) _)

/-- The clamp set in its two bytes. -/
theorem clampSet_bytes (threshold capture hold : Bool) :
    beBytes 2 (256 * threshold.toNat + 4096 * capture.toNat + 8192 * hold.toNat) =
      [(if threshold then 0x01 else 0) ||| (if capture then 0x10 else 0) ||| (if hold then 0x20 else 0), 0] := by
  revert threshold capture hold
  decide

theorem setClampsThreshold_eq (p : SlotSetParams) : setClampsThreshold p =
    (p.present.getLsbD 8 && decide (p.threshold.toInt < -60) || p.present.getLsbD 8 && decide (0 < p.threshold.toInt)) := by
  rw [← Bool.and_or_distrib_left, Bool.eq_iff_iff]
  simp only [setClampsThreshold, setHas, Nat.reduceSub, clampThreshold_eq, Bool.and_eq_true, Bool.or_eq_true,
    decide_eq_true_iff, bne_iff_ne]
  refine and_congr_right fun _ => ?_
  split_ifs <;> omega

theorem setClampsCapture_eq (p : SlotSetParams) : setClampsCapture p =
    (p.present.getLsbD 12 && decide (p.captureThreshold.toNat < 2) ||
      p.present.getLsbD 12 && decide (128 < p.captureThreshold.toNat)) := by
  rw [← Bool.and_or_distrib_left, Bool.eq_iff_iff]
  simp only [setClampsCapture, setHas, Nat.reduceSub, clampCapture_eq, Bool.and_eq_true, Bool.or_eq_true,
    decide_eq_true_iff, bne_iff_ne]
  refine and_congr_right fun _ => ?_
  split_ifs <;> omega

theorem setClampsHold_eq (p : SlotSetParams) :
    setClampsHold p = (p.present.getLsbD 13 && decide (2000 < p.holdMs.toNat)) := by
  rw [Bool.eq_iff_iff]
  simp only [setClampsHold, setHas, Nat.reduceSub, clampHold_eq, Bool.and_eq_true, decide_eq_true_iff, bne_iff_ne]
  refine and_congr_right fun _ => ?_
  split_ifs <;> omega

/-- The stored value of a clamped field, in its bytes: the limit that it took. -/
theorem thresholdReport (p : SlotSetParams) :
    beSigned 1 (if setClampsThreshold p then clampThreshold p.threshold else 0) =
      [if p.present.getLsbD 8 && decide (p.threshold.toInt < -60) then 0xC4 else 0] := by
  rw [setClampsThreshold_eq, clampThreshold_eq]
  cases p.present.getLsbD 8 with
  | false =>
    simp only [Bool.false_and, Bool.or_self, Bool.false_eq_true, if_false]
    rfl
  | true =>
    by_cases low : p.threshold.toInt < -60
    · simp only [low, decide_true, Bool.true_and, Bool.true_or, if_true]
      rfl
    · by_cases high : 0 < p.threshold.toInt <;> simp only [low, high, decide_true, decide_false, Bool.true_and,
        Bool.or_true, Bool.or_false, if_true, Bool.false_eq_true, if_false] <;> rfl

theorem captureReport (p : SlotSetParams) :
    beBytes 1 (if setClampsCapture p then clampCapture p.captureThreshold else 0) =
      [if p.present.getLsbD 12 && decide (p.captureThreshold.toNat < 2) then 2
        else if p.present.getLsbD 12 && decide (128 < p.captureThreshold.toNat) then 128 else 0] := by
  rw [setClampsCapture_eq, clampCapture_eq]
  cases p.present.getLsbD 12 with
  | false =>
    simp only [Bool.false_and, Bool.or_self, Bool.false_eq_true, if_false]
    rfl
  | true =>
    by_cases low : p.captureThreshold.toNat < 2
    · simp only [low, decide_true, Bool.true_and, Bool.true_or, if_true]
      rfl
    · by_cases high : 128 < p.captureThreshold.toNat <;> simp only [low, high, decide_true, decide_false, Bool.true_and,
        Bool.or_true, Bool.or_false, if_true, Bool.false_eq_true, if_false] <;> rfl

theorem holdReport (p : SlotSetParams) :
    beBytes 2 (if setClampsHold p then clampHold p.holdMs else 0) =
      if p.present.getLsbD 13 && decide (2000 < p.holdMs.toNat) then [0x07, 0xD0] else [0, 0] := by
  rw [setClampsHold_eq, clampHold_eq]
  cases p.present.getLsbD 13 with
  | false =>
    simp only [Bool.false_and, Bool.false_eq_true, if_false]
    rfl
  | true =>
    by_cases long : 2000 < p.holdMs.toNat <;> simp only [long, decide_true, decide_false, Bool.true_and, if_true,
      Bool.false_eq_true, if_false] <;> rfl

/-- What the reply of an accepted SLOT_SET says, byte by byte. -/
theorem setClampReport_eq (p : SlotSetParams) :
    setClampReport p =
      [(if p.present.getLsbD 8 && decide (p.threshold.toInt < -60) || p.present.getLsbD 8 && decide (0 < p.threshold.toInt)
          then 0x01 else 0) |||
        (if p.present.getLsbD 12 && decide (p.captureThreshold.toNat < 2) ||
            p.present.getLsbD 12 && decide (128 < p.captureThreshold.toNat) then 0x10 else 0) |||
        (if p.present.getLsbD 13 && decide (2000 < p.holdMs.toNat) then 0x20 else 0), 0,
        if p.present.getLsbD 8 && decide (p.threshold.toInt < -60) then 0xC4 else 0,
        if p.present.getLsbD 12 && decide (p.captureThreshold.toNat < 2) then 2
        else if p.present.getLsbD 12 && decide (128 < p.captureThreshold.toNat) then 128 else 0] ++
        (if p.present.getLsbD 13 && decide (2000 < p.holdMs.toNat) then [0x07, 0xD0] else [0, 0]) := by
  rw [setClampReport, clampSet_bytes, thresholdReport, captureReport, holdReport, setClampsThreshold_eq,
    setClampsCapture_eq, setClampsHold_eq]
  rfl

/-! ## The second and third check (R23, R24) -/

/-- In a mask of at most one slot, the slot that is named is the list. -/
theorem maskSlots_single {mask : Byte} (single : ¬1 < (maskSlots mask).length) {n : SlotId}
    (named : mask.getLsbD n.val = true) : maskSlots mask = [n] := by
  rw [← mem_maskSlots] at named
  match list : maskSlots mask with
  | [] => simp [list] at named
  | [k] =>
    rw [list, List.mem_singleton] at named
    rw [named]
  | _ :: _ :: _ => simp [list] at single

/-- An accepted shape with a field of the pair names one slot. -/
theorem single_of_shape {p : SlotSetParams} (shape : setBadShape p = none)
    (pairField : setHas p 1 = true ∨ setHas p 2 = true) : ¬1 < (maskSlots p.mask).length := fun several => by
  obtain ⟨-, single, -⟩ := setBadShape_none.mp shape
  exact single ⟨several, pairField⟩

theorem setUnsets_some {s : State} {p : SlotSetParams} (shape : setBadShape p = none) (n : SlotId) :
    s.setUnsets p = some n ↔
      p.present.getLsbD 1 = true ∧ p.frequency = 0 ∧ p.mask.getLsbD n.val = true ∧ (s.slot n).acq ≠ .off := by
  have marked : setHas p 2 = p.present.getLsbD 1 := rfl
  unfold State.setUnsets
  by_cases unsets : setHas p 2 = true ∧ p.frequency = 0
  · obtain ⟨present, zero⟩ := unsets
    have tests : (setHas p 2 && p.frequency == 0) = true := by simp [present, zero]
    rw [if_pos tests]
    constructor
    · intro found
      have member := List.mem_of_find?_eq_some found
      have enabled := List.find?_some found
      exact ⟨marked ▸ present, zero, (mem_maskSlots _ _).mp member, by simpa [Slot.enabled] using enabled⟩
    · rintro ⟨-, -, named, enabled⟩
      rw [maskSlots_single (single_of_shape shape (.inr present)) named, List.find?_cons_of_pos]
      simpa [Slot.enabled] using enabled
  · have tests : ¬(setHas p 2 && p.frequency == 0) = true := by simpa using unsets
    rw [if_neg tests]
    exact ⟨(fun found => by cases found), fun ⟨present, zero, _⟩ => absurd ⟨marked ▸ present, zero⟩ unsets⟩

theorem pair_eq_some {r : TuningRecord} {i : RfId} {f : Nat} : r.pair = some (i, f) ↔ r.Holds i f := by
  unfold TuningRecord.pair
  cases set : r.frequency with
  | none => simp [TuningRecord.Holds, set]
  | some g => simp [TuningRecord.Holds, set]

theorem activeClaim_eq_some {x : Slot} {i : RfId} {f : Nat} :
    x.activeClaim = some (i, f) ↔ x.acq ≠ .off ∧ ∃ r, x.active = some r ∧ r.Holds i f := by
  unfold Slot.activeClaim
  by_cases enabled : x.acq = .off
  · simp [Slot.enabled, enabled]
  · cases x.active <;> simp [Slot.enabled, enabled, pair_eq_some]

/-- A search that one element alone ends answers with that element. -/
theorem findSome?_of_only {α β : Type} {f : α → Option β} {l : List α} {a : α} {b : β} (member : a ∈ l)
    (found : f a = some b) (only : ∀ c, c ≠ a → f c = none) : l.findSome? f = some b := by
  induction l with
  | nil => cases member
  | cons c l ih =>
    by_cases here : c = a
    · rw [List.findSome?_cons, here, found]
    · rw [List.findSome?_cons, only c here]
      exact ih ((List.mem_cons.mp member).resolve_left (Ne.symm here))

/-- The one slot that holds the resulting pair is what the reply of R24 names. -/
theorem setConflict_of_claim {s : State} {p : SlotSetParams} (shape : setBadShape p = none) (law : s.ClaimLaw)
    {n m : SlotId} {pair : RfId × Nat} (named : p.mask.getLsbD n.val = true) (differ : n ≠ m)
    (result : (setWrite p (s.slot n).programmed).pair = some pair) (claim : (s.slot m).claims pair) {data : List Byte}
    (answer : conflictWith n m pair (s.slot m) = some data) : s.setConflict p = some data := by
  have single : ¬1 < (maskSlots p.mask).length := fun several => by
    obtain ⟨a, b, ab, ha, hb⟩ := (one_lt_maskSlots _).mp several
    have kept : (setWrite p (s.slot n).programmed).pair = (s.slot n).programmed.pair := by
      by_cases same : n = a
      · exact pair_kept_of_shape shape (same ▸ ab) named hb _
      · exact pair_kept_of_shape shape same named ha _
    exact differ (law.2 n m pair (.inl (kept.symm.trans result)) claim)
  rw [State.setConflict, maskSlots_single single named]
  have found : s.slotConflict p n = some data := by
    rw [State.slotConflict, result]
    refine findSome?_of_only (mem_allSlots m) answer fun k other => conflictWith_none.mpr (.inr fun claims => ?_)
    exact other (law.2 k m pair claims claim)
  rw [List.findSome?_cons, found]

/-! ## SLOT_SET -/

/-- Settles O12: the request by the first check that fails, then what is written, reported and refused. -/
theorem slotSetIsAllOrNothing : Obligations.SlotSetIsAllOrNothing := by
  refine ⟨fun l tag p s serves => ?request, fun p r => ?_, fun p r => setWrite_codes p r, setClampReport_eq, fun p => ?shape,
    fun p n s shape => setUnsets_some shape n, fun p s => ?pairs⟩
  case request =>
    obtain ⟨t, ran, replied, same⟩ := served (c := .slotSet l tag p) serves rfl
    have answer : s.applyRequest l (.slotSet p) = s.slotSet p := rfl
    rw [answer, State.slotSet] at replied same
    refine ⟨t, ran, fun shape unsets conflict => ?accepted, fun data shape => ?badArg,
      fun n shape unsets => ?badState, fun data shape unsets conflict => ?conflict⟩
    case accepted =>
      rw [shape, unsets, conflict] at replied same
      have slots : t.slots = ((maskSlots p.mask).foldl (State.program p) s).slots := by rw [same]; rfl
      refine ⟨replied, fun n => ?_, ?_⟩
      · rw [← slot_accepted, State.slot, State.slot, slots]
      · rw [slots]
        conv_lhs => rw [same]
        show { (maskSlots p.mask).foldl (State.program p) s with agent := t.agent } = _
        rw [program_frame]
    case badArg =>
      rw [shape] at replied same
      exact ⟨replied, same⟩
    case badState =>
      rw [shape, unsets] at replied same
      exact ⟨replied, same⟩
    case conflict =>
      rw [shape, unsets, conflict] at replied same
      exact ⟨replied, same⟩
  case shape =>
    refine ⟨setBadShape_of_mask, fun mask shared => setBadShape_of_pair mask shared,
      fun k mask single bad first => ?_, fun mask single good => ?_⟩
    · rw [setBadShape_of_values mask single, setFirstBad_of_field bad first]
      rfl
    · rw [setBadShape_of_values mask single, setFirstBad_of_inRange good]
      rfl
  case pairs =>
    refine ⟨?_, fun shape law n m i f named differ holds =>
      ⟨fun programmed => ?_, fun notProgrammed active => ?_⟩⟩
    · simp only [setConflict_none, Prod.forall, Slot.claims, Slot.programmedClaim, pair_eq_some, activeClaim_eq_some,
        not_or]
    · have claim : (s.slot m).programmedClaim = some (i, f) := pair_eq_some.mpr programmed
      refine setConflict_of_claim shape law named differ (pair_eq_some.mpr holds) (.inl claim) ?_
      rw [conflictWith, if_neg differ, if_pos claim]
    · have claim : (s.slot m).activeClaim = some (i, f) := activeClaim_eq_some.mpr active
      have free : ¬(s.slot m).programmedClaim = some (i, f) := fun claim => notProgrammed (pair_eq_some.mp claim)
      refine setConflict_of_claim shape law named differ (pair_eq_some.mpr holds) (.inr claim) ?_
      rw [conflictWith, if_neg differ, if_neg free, if_pos claim]
  obtain ⟨input, frequency, bandwidth, mode, guard, constellation, rate, cell, threshold, dwell, pilot, candidate,
    capture, hold, burst, policy⟩ := setWrite_absent p r
  exact ⟨input, frequency, bandwidth, mode, guard, constellation, rate, cell, threshold, dwell, pilot, candidate,
    capture, hold, burst, policy, setWrite_present p r⟩

end Sys2Proof.Machine
end

section
/-! SUPPORT. SLOT_CONTROL (R26 to R29): the slots of a mask acted on in ascending order, and what each action leaves. -/

namespace Sys2Proof.Machine

open Sys2Proof

/-! ## The slots of a mask, in order -/

/-- The mask that names the slots of a list, beside those of `acted`. -/
def withSlots (acted : Byte) (ns : List SlotId) : Byte := ns.foldl (fun m n => m ||| slotBit n) acted

/-- The slots of a mask before a given one. -/
def maskBefore (mask : Byte) (k : SlotId) : Byte := mask &&& (slotBit k - 1)

theorem withSlots_maskSlots (mask : Byte) (ok : maskOk mask = true) : withSlots 0 (maskSlots mask) = mask := by
  revert mask
  decide +kernel

theorem withSlots_maskBefore (mask : Byte) (k : SlotId) :
    withSlots 0 (maskSlots (maskBefore mask k)) = maskBefore mask k := by
  revert mask k
  decide +kernel

theorem maskSlots_split (mask : Byte) (k : SlotId) (named : mask.getLsbD k.val = true) :
    maskSlots mask = maskSlots (maskBefore mask k) ++ k :: (maskSlots mask).filter (k < ·) := by
  revert mask k
  decide +kernel

theorem getLsbD_maskBefore (mask : Byte) (k m : SlotId) :
    (maskBefore mask k).getLsbD m.val = true ↔ mask.getLsbD m.val = true ∧ m < k := by
  revert mask k m
  decide +kernel

theorem maskOk_of_bounds {mask : Byte} (low : 0 < mask.toNat) (high : mask.toNat < 64) : maskOk mask = true :=
  (maskOk_iff mask).mpr (by omega)

theorem State.setSlot_slot (s : State) (n : SlotId) : s.setSlot n (s.slot n) = s := by
  simp [State.setSlot, State.slot]

/-! ## What an action has made of a state -/

/-- From s to u nothing but the slots and the captures has changed. -/
abbrev SlotsAndCaptures (s u : State) : Prop :=
  u = { s with slots := u.slots, capture0 := u.capture0, capture1 := u.capture1 }

theorem SlotsAndCaptures.trans {s u v : State} (first : SlotsAndCaptures s u) (second : SlotsAndCaptures u v) :
    SlotsAndCaptures s v := by
  unfold SlotsAndCaptures at first
  generalize u.slots = slots, u.capture0 = capture0, u.capture1 = capture1 at first
  subst first
  exact second

/-- The state u is s after an action on the slots of a list: each has become its image under f, and the captures that
watch one which the action takes from TRACK have ended. -/
def ActedOn (f : Slot → Slot) (ends : Slot → Bool) (s : State) (done : List SlotId) (u : State) : Prop :=
  (∀ m, u.slot m = if m ∈ done then f (s.slot m) else s.slot m) ∧
  (∀ c, u.capture c =
    if (s.capture c).slot ∈ done ∧ ends (s.slot (s.capture c).slot) = true then
      leftTrack (s.capture c).slot (s.capture c)
    else s.capture c) ∧
  SlotsAndCaptures s u

/-- The action on one slot. -/
def actOn (f : Slot → Slot) (ends : Slot → Bool) (u : State) (n : SlotId) : State :=
  if ends (u.slot n) then (u.setSlot n (f (u.slot n))).endCaptures n else u.setSlot n (f (u.slot n))

theorem leftTrack_slot (n : SlotId) (c : CaptureContext) : (leftTrack n c).slot = c.slot := by
  unfold leftTrack
  split <;> rfl

theorem leftTrack_other {n : SlotId} {c : CaptureContext} (other : c.slot ≠ n) : leftTrack n c = c :=
  if_neg fun watches => other watches.2

section

variable {f : Slot → Slot} {ends : Slot → Bool} {s u : State} {done : List SlotId}

theorem actedOn_nil (f : Slot → Slot) (ends : Slot → Bool) (s : State) : ActedOn f ends s [] s :=
  ⟨fun m => by simp, fun c => by simp, rfl⟩

theorem ActedOn.slot_fresh (acted : ActedOn f ends s done u) {n : SlotId} (fresh : n ∉ done) : u.slot n = s.slot n := by
  obtain ⟨slots, -, -⟩ := acted
  rw [slots, if_neg fresh]

theorem slot_actOn (n m : SlotId) : (actOn f ends u n).slot m = if n = m then f (u.slot n) else u.slot m := by
  unfold actOn
  split <;> simp [State.slot_setSlot]

theorem capture_actOn (n : SlotId) (c : CtxId) :
    (actOn f ends u n).capture c = if ends (u.slot n) = true then leftTrack n (u.capture c) else u.capture c := by
  unfold actOn
  split <;> simp [State.capture_endCaptures]

theorem actOn_frame (n : SlotId) : SlotsAndCaptures u (actOn f ends u n) := by
  unfold actOn
  split <;> rfl

/-- The action on one slot more. -/
theorem ActedOn.snoc (acted : ActedOn f ends s done u) {n : SlotId} (fresh : n ∉ done) :
    ActedOn f ends s (done ++ [n]) (actOn f ends u n) := by
  have same := acted.slot_fresh fresh
  obtain ⟨slots, captures, frame⟩ := acted
  refine ⟨fun m => ?slot, fun c => ?capture, ?frame⟩
  case slot =>
    rw [slot_actOn]
    by_cases here : n = m
    · subst here
      simp [same]
    · simp [here, slots m, Ne.symm here]
  case capture =>
    rw [capture_actOn, same, captures]
    by_cases watches : (s.capture c).slot = n
    · simp [watches, fresh]
    · simp only [List.mem_append, List.mem_singleton, watches, or_false]
      rw [leftTrack_other, ite_self]
      split
      · rwa [leftTrack_slot]
      · exact watches
  case frame => exact frame.trans (actOn_frame n)

/-- With no capture ended, slots alone have changed. -/
theorem ActedOn.slots_alone (acted : ActedOn f ends s done u) (never : ∀ x, ends x = false) :
    u = { s with slots := u.slots } := by
  obtain ⟨-, captures, frame⟩ := acted
  have same (c : CtxId) : u.capture c = s.capture c := by rw [captures, never]; simp
  rw [frame]
  have first := same .c0
  have second := same .c1
  simp only [State.capture] at first second
  rw [first, second]

end

/-! ## The order of the slots and the first failure (R26) -/

section

variable {act : State → SlotId → Status × State} {f : Slot → Slot} {ends : Slot → Bool} {good : SlotId → Prop} {s : State}

/-- Slots at which the action succeeds are acted on one after the other. -/
theorem controlSlots_good
    (acts : ∀ done u n, ActedOn f ends s done u → n ∉ done → good n → act u n = (.ok, actOn f ends u n))
    (ns rest : List SlotId) (acted : Byte) (done : List SlotId) (u : State) (before : ActedOn f ends s done u)
    (nodup : (done ++ ns).Nodup) (all : ∀ n ∈ ns, good n) :
    ∃ v, ActedOn f ends s (done ++ ns) v ∧
      u.controlSlots act acted (ns ++ rest) = v.controlSlots act (withSlots acted ns) rest := by
  induction ns generalizing acted done u with
  | nil => exact ⟨u, by rwa [List.append_nil], rfl⟩
  | cons n ns ih =>
    have fresh : n ∉ done := fun member => by
      have apart := List.nodup_append.mp nodup
      exact apart.2.2 n member n (List.mem_cons_self ..) rfl
    have assoc : done ++ [n] ++ ns = done ++ n :: ns := by simp
    obtain ⟨v, after, runs⟩ := ih (acted ||| slotBit n) (done ++ [n]) (actOn f ends u n) (before.snoc fresh)
      (assoc ▸ nodup) fun m member => all m (List.mem_cons_of_mem n member)
    refine ⟨v, assoc ▸ after, ?_⟩
    rw [List.cons_append, State.controlSlots, acts done u n before fresh (all n (List.mem_cons_self ..))]
    exact runs

/-- Every slot of the mask is acted on. -/
theorem controlSlots_all {mask : Byte} (ok : maskOk mask = true)
    (acts : ∀ done u n, ActedOn f ends s done u → n ∉ done → good n → act u n = (.ok, actOn f ends u n))
    (all : ∀ n : SlotId, mask.getLsbD n.val = true → good n) :
    ∃ v, ActedOn f ends s (maskSlots mask) v ∧ s.controlSlots act 0 (maskSlots mask) = v.accept [mask, 255] := by
  obtain ⟨v, after, runs⟩ := controlSlots_good acts (maskSlots mask) [] 0 [] s (actedOn_nil f ends s)
    (nodup_maskSlots mask) fun n member => all n ((mem_maskSlots mask n).mp member)
  rw [List.append_nil, withSlots_maskSlots mask ok] at runs
  exact ⟨v, after, runs⟩

/-- The slots before the first failing one are acted on, and that one is named. -/
theorem controlSlots_first_bad {mask : Byte} {k : SlotId} {status : Status} (failure : status ≠ .ok)
    (acts : ∀ done u n, ActedOn f ends s done u → n ∉ done → good n → act u n = (.ok, actOn f ends u n))
    (fails : ∀ done u, ActedOn f ends s done u → k ∉ done → act u k = (status, u)) (named : mask.getLsbD k.val = true)
    (all : ∀ m : SlotId, m < k → mask.getLsbD m.val = true → good m) :
    ∃ v, ActedOn f ends s (maskSlots (maskBefore mask k)) v ∧
      s.controlSlots act 0 (maskSlots mask) = v.refuse status [maskBefore mask k, BitVec.ofNat 8 k.val] := by
  have before (n : SlotId) : n ∈ maskSlots (maskBefore mask k) ↔ mask.getLsbD n.val = true ∧ n < k := by
    rw [mem_maskSlots, getLsbD_maskBefore]
  obtain ⟨v, after, runs⟩ := controlSlots_good acts (maskSlots (maskBefore mask k))
    (k :: (maskSlots mask).filter (k < ·)) 0 [] s (actedOn_nil f ends s) (nodup_maskSlots _) fun n member => by
      obtain ⟨marked, below⟩ := (before n).mp member
      exact all n below marked
  rw [← maskSlots_split mask k named, withSlots_maskBefore] at runs
  refine ⟨v, after, runs.trans ?_⟩
  have notYet : k ∉ maskSlots (maskBefore mask k) := fun member => lt_irrefl k ((before k).mp member).2
  rw [State.controlSlots, fails _ v after notYet]
  cases status with
  | ok => exact absurd rfl failure
  | _ => rfl

end

/-! ## The three actions -/

/-- What ENABLE makes of a slot (R27). -/
def enabled (x : Slot) : Slot :=
  if x.acq = .off then attemptStarted .sense 540000 { x with attempts := 0, backoff := 1, lastFailure := .none } else x

/-- What DISABLE makes of a slot (R28). -/
def disabled (x : Slot) : Slot := if x.acq ≠ .off then switchedOff x else x

/-- What RETUNE makes of an enabled slot (R29). -/
def retuned (x : Slot) : Slot := attemptStarted .sense 540000 { x with attempts := 0, lastFailure := .none }

theorem Slot.enabled_iff (x : Slot) : x.enabled = true ↔ x.acq ≠ .off := by simp [Slot.enabled]

/-- A slot that ENABLE starts claims through its active record what its programmed record claims. -/
theorem activeClaim_enabled {x : Slot} {pair : RfId × Nat} (claim : (enabled x).activeClaim = some pair) :
    x.claims pair := by
  unfold enabled at claim
  split at claim
  · exact .inl claim
  · exact .inr claim

theorem enableSlot_acts {s u : State} {done : List SlotId} {n : SlotId} (law : s.ClaimLaw)
    (acted : ActedOn enabled (fun _ => false) s done u) (fresh : n ∉ done)
    (good : (s.slot n).acq ≠ .off ∨ (s.slot n).programmed.frequency ≠ none) :
    u.enableSlot n = (.ok, actOn enabled (fun _ => false) u n) := by
  have same := acted.slot_fresh fresh
  rw [← same] at good
  have becomes : actOn enabled (fun _ => false) u n = u.setSlot n (enabled (u.slot n)) := rfl
  rw [becomes]
  by_cases off : (u.slot n).acq = .off
  · obtain ⟨f, set⟩ := Option.ne_none_iff_exists'.mp (good.resolve_left (not_not.mpr off))
    have claim : (u.slot n).programmedClaim = some ((u.slot n).programmed.input, f) := pair_eq_some.mpr ⟨rfl, set⟩
    have free : u.pairReceived n ((u.slot n).programmed.input, f) = false := by
      rw [← Bool.not_eq_true, State.pairReceived, List.any_eq_true]
      rintro ⟨m, -, received⟩
      obtain ⟨differ, holds⟩ : m ≠ n ∧ (u.slot m).activeClaim = some ((u.slot n).programmed.input, f) := by
        simpa using received
      obtain ⟨slots, -, -⟩ := acted
      have other : (s.slot m).claims ((u.slot n).programmed.input, f) := by
        rw [slots m] at holds
        split at holds
        · exact activeClaim_enabled holds
        · exact .inr holds
      exact differ (law.2 m n _ other (.inl (same ▸ claim)))
    have notEnabled : ¬(u.slot n).enabled = true := by simpa [Slot.enabled] using off
    rw [State.enableSlot, if_neg notEnabled, claim]
    dsimp only
    rw [if_neg (by simp [free]), Slot.enable, Slot.startSense_clear, enabled, if_pos off]
  · rw [State.enableSlot, if_pos ((u.slot n).enabled_iff.mpr off), enabled, if_neg off, State.setSlot_slot]

theorem enableSlot_fails {u : State} {n : SlotId} (off : (u.slot n).acq = .off)
    (unset : (u.slot n).programmed.frequency = none) : u.enableSlot n = (.badState, u) := by
  have claim : (u.slot n).programmedClaim = none := by simp [Slot.programmedClaim, TuningRecord.pair, unset]
  have notEnabled : ¬(u.slot n).enabled = true := by simpa [Slot.enabled] using off
  rw [State.enableSlot, if_neg notEnabled, claim]

theorem disableSlot_acts (u : State) (n : SlotId) :
    u.disableSlot n = (.ok, actOn disabled (fun x => x.acq != .off) u n) := by
  by_cases off : (u.slot n).acq = .off
  · simp [State.disableSlot, Slot.enabled, actOn, disabled, off, State.setSlot_slot]
  · simp [State.disableSlot, Slot.enabled, actOn, disabled, off, Slot.toOff_eq]

theorem retuneSlot_acts {u : State} {n : SlotId} (on : (u.slot n).acq ≠ .off) :
    u.retuneSlot n = (.ok, actOn retuned (fun x => x.acq == .track) u n) := by
  rw [State.retuneSlot, if_pos ((u.slot n).enabled_iff.mpr on), Slot.freshAttempt, Slot.startSense_clear]
  by_cases track : (u.slot n).acq = .track <;> simp [actOn, retuned, track]

theorem retuneSlot_fails {u : State} {n : SlotId} (off : (u.slot n).acq = .off) : u.retuneSlot n = (.badState, u) := by
  simp [State.retuneSlot, Slot.enabled, off]

theorem slotControl_enable {s : State} {mask : Byte} (ok : maskOk mask = true) (l : Side) :
    s.applyRequest l (.slotControl mask actionEnable) = s.controlSlots State.enableSlot 0 (maskSlots mask) := by
  simp only [State.applyRequest, State.slotControl, ok]
  rfl

theorem slotControl_disable {s : State} {mask : Byte} (ok : maskOk mask = true) (l : Side) :
    s.applyRequest l (.slotControl mask actionDisable) = s.controlSlots State.disableSlot 0 (maskSlots mask) := by
  simp only [State.applyRequest, State.slotControl, ok]
  rfl

theorem slotControl_retune {s : State} {mask : Byte} (ok : maskOk mask = true) (l : Side) :
    s.applyRequest l (.slotControl mask actionRetune) = s.controlSlots State.retuneSlot 0 (maskSlots mask) := by
  simp only [State.applyRequest, State.slotControl, ok]
  rfl

/-- A list of one slot at which the action succeeds. -/
theorem controlSlots_single_ok {act : State → SlotId → Status × State} {s t : State} {n : SlotId}
    (acts : act s n = (.ok, t)) : s.controlSlots act 0 [n] = t.accept [slotBit n, 255] := by
  rw [State.controlSlots, acts, show (0 : Byte) ||| slotBit n = slotBit n from BitVec.zero_or]
  rfl

/-- A list of one slot at which the action fails. -/
theorem controlSlots_single_fails {act : State → SlotId → Status × State} {s t : State} {n : SlotId} {status : Status}
    (acts : act s n = (status, t)) (failure : status ≠ .ok) :
    s.controlSlots act 0 [n] = s.refuse status [0, BitVec.ofNat 8 n.val] := by
  rw [State.controlSlots, acts]
  cases status with
  | ok => exact absurd rfl failure
  | _ => rfl

/-- What every accepted action on a slot of the list keeps, SLOT_CONTROL keeps. -/
theorem controlSlots_keeps {act : State → SlotId → Status × State} {Kept : State → Prop} {ns : List SlotId}
    (keeps : ∀ u n v, n ∈ ns → Kept u → act u n = (.ok, v) → Kept v) (acted : Byte) (u : State) (kept : Kept u) :
    Kept (u.controlSlots act acted ns).state := by
  induction ns generalizing acted u with
  | nil => exact kept
  | cons n ns ih =>
    rw [State.controlSlots]
    split
    · next v acts =>
      exact ih (fun u m v member => keeps u m v (List.mem_cons_of_mem n member)) _ v
        (keeps u n v (List.mem_cons_self ..) kept acts)
    · exact kept

/-- What an accepted action on one slot leaves: one of the three images, on that slot. -/
theorem enableSlot_ok {u v : State} {n : SlotId} (acts : u.enableSlot n = (.ok, v)) :
    v = u ∨ v = actOn enabled (fun _ => false) u n := by
  unfold State.enableSlot at acts
  split at acts
  · exact .inl (Prod.mk.inj acts).2.symm
  · next notEnabled =>
    have off : (u.slot n).acq = .off := by simpa [Slot.enabled] using notEnabled
    split at acts
    · cases acts
    · split at acts
      · cases acts
      · right
        rw [← (Prod.mk.inj acts).2, Slot.enable, Slot.startSense_clear]
        simp [actOn, enabled, off]

theorem retuneSlot_ok {u v : State} {n : SlotId} (acts : u.retuneSlot n = (.ok, v)) :
    v = actOn retuned (fun x => x.acq == .track) u n := by
  have on : (u.slot n).acq ≠ .off := fun off => by
    rw [retuneSlot_fails off] at acts
    cases acts
  rw [retuneSlot_acts on] at acts
  exact (Prod.mk.inj acts).2.symm

theorem slot_of_sameButAgent {u t : State} (same : SameButAgent u t) (n : SlotId) : t.slot n = u.slot n := by
  rw [same]
  rfl

theorem capture_of_sameButAgent {u t : State} (same : SameButAgent u t) (c : CtxId) : t.capture c = u.capture c := by
  rw [same]
  cases c <;> rfl

/-! ## ENABLE -/

/-- Nothing but the slots has changed. -/
abbrev SlotsOnly (s u : State) : Prop := u = { s with slots := u.slots }

theorem SlotsOnly.trans {s u v : State} (first : SlotsOnly s u) (second : SlotsOnly u v) : SlotsOnly s v := by
  unfold SlotsOnly at first
  generalize u.slots = slots at first
  subst first
  exact second

/-- ENABLE of a set of slots changes slots alone, whatever its outcome. -/
theorem enable_slotsOnly (s : State) (mask : Byte) :
    SlotsOnly s (s.controlSlots State.enableSlot 0 (maskSlots mask)).state := by
  refine controlSlots_keeps (Kept := SlotsOnly s) (fun u n v _ kept acts => ?_) 0 s rfl
  rcases enableSlot_ok acts with rfl | rfl
  · exact kept
  · exact kept.trans rfl

theorem pairReceived_iff {s : State} {n : SlotId} {pair : RfId × Nat} :
    s.pairReceived n pair = true ↔ ∃ m, m ≠ n ∧ (s.slot m).activeClaim = some pair := by
  simp [State.pairReceived, mem_allSlots]

/-- Settles O13: a set of slots in order, with the claim law keeping every pair free; one slot by the rows of R27. -/
theorem enableStartsASlot : Obligations.EnableStartsASlot := by
  refine ⟨fun l tag mask s serves law low high => ?set, fun l tag n s serves => ?single⟩
  case set =>
    intro started
    obtain ⟨t, ran, replied, same⟩ := served (c := .enable l tag mask) serves rfl
    have ok := maskOk_of_bounds low high
    rw [slotControl_enable ok] at replied same
    have acts : ∀ done u n, ActedOn enabled (fun _ => false) s done u → n ∉ done →
        ((s.slot n).acq ≠ .off ∨ (s.slot n).programmed.frequency ≠ none) →
        u.enableSlot n = (.ok, actOn enabled (fun _ => false) u n) :=
      fun done u n acted fresh good => enableSlot_acts law acted fresh good
    refine ⟨t, ran, ?frame, fun all => ?all, fun k named off unset first => ?first⟩
    case frame =>
      have slotsOnly := enable_slotsOnly s mask
      unfold SlotsOnly at slotsOnly
      generalize (s.controlSlots State.enableSlot 0 (maskSlots mask)).state.slots = slots at slotsOnly
      rw [slotsOnly] at same
      rw [same]
    case all =>
      obtain ⟨v, ⟨slots, -, -⟩, answer⟩ := controlSlots_all ok acts all
      rw [answer] at replied same
      refine ⟨replied, fun n => (slot_of_sameButAgent same n).trans ((slots n).trans ?_)⟩
      simp only [mem_maskSlots]
      rfl
    case first =>
      have fails : ∀ done u, ActedOn enabled (fun _ => false) s done u → k ∉ done →
          u.enableSlot k = (.badState, u) := fun done u acted fresh => by
        rw [← acted.slot_fresh fresh] at off unset
        exact enableSlot_fails off unset
      obtain ⟨v, ⟨slots, -, -⟩, answer⟩ := controlSlots_first_bad (by decide) acts fails named first
      rw [answer] at replied same
      refine ⟨replied, fun n => (slot_of_sameButAgent same n).trans ((slots n).trans ?_)⟩
      simp only [mem_maskSlots, getLsbD_maskBefore]
      rfl
  case single =>
    obtain ⟨t, ran, replied, same⟩ := served (c := .enable l tag (slotBit n)) serves rfl
    rw [slotControl_enable (maskOk_bit n), maskSlots_bit] at replied same
    have notEnabled (off : (s.slot n).acq = .off) : ¬(s.slot n).enabled = true := by simpa [Slot.enabled] using off
    have claims {f : Nat} (set : (s.slot n).programmed.frequency = some f) :
        (s.slot n).programmedClaim = some ((s.slot n).programmed.input, f) := pair_eq_some.mpr ⟨rfl, set⟩
    refine ⟨t, ran, fun off unset => ?unset, fun f off set received => ?conflict, fun f off set free => ?starts,
      fun on => ?stays⟩
    case unset =>
      rw [controlSlots_single_fails (enableSlot_fails off unset) (by decide)] at replied same
      exact ⟨replied, same⟩
    case conflict =>
      have answer : s.enableSlot n = (.conflict, s) := by
        rw [State.enableSlot, if_neg (notEnabled off), claims set]
        exact if_pos (pairReceived_iff.mpr received)
      rw [controlSlots_single_fails answer (by decide)] at replied same
      exact ⟨replied, same⟩
    case starts =>
      have answer : s.enableSlot n = (.ok, s.setSlot n (s.slot n).enable) := by
        rw [State.enableSlot, if_neg (notEnabled off), claims set]
        refine if_neg fun received => ?_
        obtain ⟨m, other, claim⟩ := pairReceived_iff.mp received
        exact free m other claim
      rw [controlSlots_single_ok answer, Slot.enable, Slot.startSense_clear] at replied same
      exact ⟨replied, same⟩
    case stays =>
      have answer : s.enableSlot n = (.ok, s) := by rw [State.enableSlot, if_pos ((s.slot n).enabled_iff.mpr on)]
      rw [controlSlots_single_ok answer] at replied same
      exact ⟨replied, same⟩

/-! ## DISABLE -/

theorem SlotsAndCaptures.agent {s u t : State} (frame : SlotsAndCaptures s u) (same : SameButAgent u t) :
    t = { s with slots := t.slots, capture0 := t.capture0, capture1 := t.capture1, agent := t.agent } := by
  unfold SlotsAndCaptures at frame
  generalize u.slots = slots, u.capture0 = capture0, u.capture1 = capture1 at frame
  subst frame
  rw [same]

/-- Settles O14: every slot of the mask is acted on. -/
theorem disableStopsItsSlots : Obligations.DisableStopsItsSlots := by
  intro l tag mask s serves low high
  obtain ⟨t, ran, replied, same⟩ := served (c := .disable l tag mask) serves rfl
  have ok := maskOk_of_bounds low high
  rw [slotControl_disable ok] at replied same
  obtain ⟨v, ⟨slots, captures, frame⟩, answer⟩ := controlSlots_all (good := fun _ => True) (s := s) ok
    (fun _ u n _ _ _ => disableSlot_acts u n) fun _ _ => trivial
  rw [answer] at replied same
  refine ⟨t, ran, replied, fun n => ?slot, fun c => ?capture, frame.agent same⟩
  case slot =>
    rw [slot_of_sameButAgent same]
    refine (slots n).trans ?_
    simp only [mem_maskSlots, disabled, ite_and]
  case capture =>
    rw [capture_of_sameButAgent same]
    refine (captures c).trans ?_
    simp only [mem_maskSlots, leftTrack, bne_iff_ne, ne_eq, and_true, ite_and]

/-! ## RETUNE -/

/-- What SLOT_CONTROL keeps: the slots outside the mask, every programmed record and quality counter, and all that is
neither a slot nor a capture. -/
def ControlKeeps (mask : Byte) (s u : State) : Prop :=
  (∀ n : SlotId, mask.getLsbD n.val = false → u.slot n = s.slot n) ∧
  (∀ n, (u.slot n).programmed = (s.slot n).programmed ∧ (u.slot n).counters = (s.slot n).counters) ∧
  SlotsAndCaptures s u

theorem ControlKeeps.actOn {mask : Byte} {s u : State} (kept : ControlKeeps mask s u) {f : Slot → Slot}
    (keeps : ∀ x, (f x).programmed = x.programmed ∧ (f x).counters = x.counters) (ends : Slot → Bool) {n : SlotId}
    (named : mask.getLsbD n.val = true) : ControlKeeps mask s (actOn f ends u n) := by
  obtain ⟨outside, records, frame⟩ := kept
  refine ⟨fun m notNamed => ?_, fun m => ?_, frame.trans (actOn_frame n)⟩
  · have differ : n ≠ m := fun same => by simp [← same, named] at notNamed
    rw [slot_actOn, if_neg differ, outside m notNamed]
  · rw [slot_actOn]
    split
    · next same =>
      obtain ⟨programmed, counters⟩ := keeps (u.slot n)
      rw [programmed, counters, same]
      exact records m
    · exact records m

theorem enabled_keeps (x : Slot) : (enabled x).programmed = x.programmed ∧ (enabled x).counters = x.counters := by
  unfold enabled
  split <;> exact ⟨rfl, rfl⟩

theorem disabled_keeps (x : Slot) : (disabled x).programmed = x.programmed ∧ (disabled x).counters = x.counters := by
  unfold disabled
  split <;> exact ⟨rfl, rfl⟩

theorem retuned_keeps (x : Slot) : (retuned x).programmed = x.programmed ∧ (retuned x).counters = x.counters :=
  ⟨rfl, rfl⟩

theorem controlKeeps_refl (mask : Byte) (s : State) : ControlKeeps mask s s :=
  ⟨fun _ _ => rfl, fun _ => ⟨rfl, rfl⟩, rfl⟩

theorem enable_keeps (s : State) (mask : Byte) :
    ControlKeeps mask s (s.controlSlots State.enableSlot 0 (maskSlots mask)).state := by
  refine controlSlots_keeps (fun u n v member kept acts => ?_) 0 s (controlKeeps_refl mask s)
  rcases enableSlot_ok acts with rfl | rfl
  · exact kept
  · exact kept.actOn enabled_keeps _ ((mem_maskSlots mask n).mp member)

theorem disable_keeps (s : State) (mask : Byte) :
    ControlKeeps mask s (s.controlSlots State.disableSlot 0 (maskSlots mask)).state := by
  refine controlSlots_keeps (fun u n v member kept acts => ?_) 0 s (controlKeeps_refl mask s)
  rw [disableSlot_acts] at acts
  exact (Prod.mk.inj acts).2 ▸ kept.actOn disabled_keeps _ ((mem_maskSlots mask n).mp member)

theorem retune_keeps (s : State) (mask : Byte) :
    ControlKeeps mask s (s.controlSlots State.retuneSlot 0 (maskSlots mask)).state := by
  refine controlSlots_keeps (fun u n v member kept acts => ?_) 0 s (controlKeeps_refl mask s)
  exact retuneSlot_ok acts ▸ kept.actOn retuned_keeps _ ((mem_maskSlots mask n).mp member)

/-- A SLOT_CONTROL of any of the three actions: a bad mask is refused, and nothing else than what it may change has
changed. -/
theorem control_frame {l : Side} {tag mask action : Byte} {s : State} {c : Instr} (serves : s.Serves l)
    (row : exec c s = .next (s.requestRow l tag (.slotControl mask action)))
    (keeps : maskOk mask = true → ControlKeeps mask s (s.applyRequest l (.slotControl mask action)).state) :
    ∃ t, exec c s = .next t ∧
      ((mask.toNat = 0 ∨ 64 ≤ mask.toNat) → Replied s t l tag 0x21 .badArg [0, 255] ∧ SameButAgent s t) ∧
      (∀ n : SlotId, mask.getLsbD n.val = false → t.slot n = s.slot n) ∧
      (∀ n, (t.slot n).programmed = (s.slot n).programmed ∧ (t.slot n).counters = (s.slot n).counters) ∧
      t = { s with slots := t.slots, capture0 := t.capture0, capture1 := t.capture1, agent := t.agent } := by
  obtain ⟨t, ran, replied, same⟩ := served serves row
  have refused (bad : ¬maskOk mask = true) :
      s.applyRequest l (.slotControl mask action) = s.refuse .badArg [0, 255] := by
    have fails : maskOk mask = false := Bool.eq_false_iff.mpr bad
    simp only [State.applyRequest, State.slotControl, fails, Bool.not_false, if_true]
  have kept : ControlKeeps mask s (s.applyRequest l (.slotControl mask action)).state := by
    by_cases ok : maskOk mask = true
    · exact keeps ok
    · rw [refused ok]
      exact controlKeeps_refl mask s
  obtain ⟨outside, records, frame⟩ := kept
  refine ⟨t, ran, fun bad => ?_, fun n notNamed => ?_, fun n => ?_, frame.agent same⟩
  · rw [refused (mt (maskOk_iff mask).mp (not_not.mpr bad))] at replied same
    exact ⟨replied, same⟩
  · rw [slot_of_sameButAgent same, outside n notNamed]
  · rw [slot_of_sameButAgent same]
    exact records n

/-- Settles O15: RETUNE of one slot, RETUNE of a set in order, and what all three actions keep. -/
theorem retuneAndTheFrameOfSlotControl : Obligations.RetuneAndTheFrameOfSlotControl := by
  refine ⟨fun l tag n s serves => ?single, fun l tag mask s serves low high => ?set, fun l tag mask s serves c member => ?frame⟩
  case single =>
    obtain ⟨t, ran, replied, same⟩ := served (c := .retune l tag (slotBit n)) serves rfl
    rw [slotControl_retune (maskOk_bit n), maskSlots_bit] at replied same
    refine ⟨t, ran, fun off => ?off, fun on => ?on⟩
    case off =>
      rw [controlSlots_single_fails (retuneSlot_fails off) (by decide)] at replied same
      exact ⟨replied, same⟩
    case on =>
      rw [controlSlots_single_ok (retuneSlot_acts on)] at replied same
      have slot : t.slot n = retuned (s.slot n) := by
        rw [slot_of_sameButAgent same]
        exact (slot_actOn n n).trans (if_pos rfl)
      refine ⟨replied, slot, fun c => ?_, ?_⟩
      · rw [capture_of_sameButAgent same]
        refine (capture_actOn n c).trans ?_
        simp only [beq_iff_eq]
      · have slots : (actOn retuned (fun x => x.acq == .track) s n).slots = s.slots.set n (t.slot n) := by
          rw [slot]
          unfold actOn
          split <;> rfl
        rw [← slots]
        exact (SlotsAndCaptures.agent (actOn_frame n) same).trans (by rw [same]; rfl)
  case set =>
    intro fresh
    obtain ⟨t, ran, replied, same⟩ := served (c := .retune l tag mask) serves rfl
    have ok := maskOk_of_bounds low high
    rw [slotControl_retune ok] at replied same
    have acts : ∀ done u n, ActedOn retuned (fun x => x.acq == .track) s done u → n ∉ done → (s.slot n).acq ≠ .off →
        u.retuneSlot n = (.ok, actOn retuned (fun x => x.acq == .track) u n) := fun done u n acted fresh on => by
      rw [← acted.slot_fresh fresh] at on
      exact retuneSlot_acts on
    refine ⟨t, ran, fun all => ?all, fun k named off first => ?first⟩
    case all =>
      obtain ⟨v, ⟨slots, captures, -⟩, answer⟩ := controlSlots_all ok acts all
      rw [answer] at replied same
      refine ⟨replied, fun n => (slot_of_sameButAgent same n).trans ((slots n).trans ?_),
        fun c => (capture_of_sameButAgent same c).trans ((captures c).trans ?_)⟩
      · simp only [mem_maskSlots]
        rfl
      · simp only [mem_maskSlots, beq_iff_eq]
    case first =>
      have fails : ∀ done u, ActedOn retuned (fun x => x.acq == .track) s done u → k ∉ done →
          u.retuneSlot k = (.badState, u) := fun done u acted fresh => by
        rw [← acted.slot_fresh fresh] at off
        exact retuneSlot_fails off
      obtain ⟨v, ⟨slots, captures, -⟩, answer⟩ := controlSlots_first_bad (by decide) acts fails named first
      rw [answer] at replied same
      refine ⟨replied, fun n => (slot_of_sameButAgent same n).trans ((slots n).trans ?_),
        fun c => (capture_of_sameButAgent same c).trans ((captures c).trans ?_)⟩
      · simp only [mem_maskSlots, getLsbD_maskBefore]
        rfl
      · simp only [mem_maskSlots, getLsbD_maskBefore, beq_iff_eq, and_assoc]
  case frame =>
    simp only [List.mem_cons, List.not_mem_nil, or_false] at member
    rcases member with rfl | rfl | rfl
    · exact control_frame serves rfl fun ok => slotControl_enable (s := s) ok l ▸ enable_keeps s mask
    · exact control_frame serves rfl fun ok => slotControl_disable (s := s) ok l ▸ disable_keeps s mask
    · exact control_frame serves rfl fun ok => slotControl_retune (s := s) ok l ▸ retune_keeps s mask

end Sys2Proof.Machine
end

section
/-! SUPPORT. Data items and packed records, byte by byte, and the five pages of SLOT_READ (R31, R62, R83, R96, R169,
R173, R174). -/

namespace Sys2Proof.Machine

open Sys2Proof

/-! ## Numbers in bytes (R169) -/

@[simp] theorem length_beBytes (k n : Nat) : (beBytes k n).length = k := by
  induction k with
  | zero => rfl
  | succ k ih => rw [beBytes, List.length_cons, ih]

@[simp] theorem length_beSigned (k : Nat) (z : Int) : (beSigned k z).length = k := length_beBytes _ _

@[simp] theorem length_flagByte (b : Bool) : (flagByte b).length = 1 := rfl

theorem beBytes_one (n : Nat) : beBytes 1 n = [BitVec.ofNat 8 n] := by
  rw [beBytes, beBytes, Nat.pow_zero, Nat.div_one]

/-- The bytes of a number say no more than its remainder. -/
theorem beBytes_mod (k n : Nat) : beBytes k (n % 256 ^ k) = beBytes k n := by
  have general (j k m : Nat) (bound : j ≤ k) : beBytes j (m % 256 ^ k) = beBytes j m := by
    induction j with
    | zero => rfl
    | succ j ih =>
      have digit : m % 256 ^ k / 256 ^ j % 256 = m / 256 ^ j % 256 := by
        obtain ⟨d, rfl⟩ := Nat.exists_eq_add_of_le bound
        have powers : 256 ^ (j + 1 + d) = 256 ^ j * (256 * 256 ^ d) := by ring
        rw [powers, Nat.mod_mul_right_div_self, Nat.mod_mul_right_mod]
      have byte : BitVec.ofNat 8 (m % 256 ^ k / 256 ^ j) = BitVec.ofNat 8 (m / 256 ^ j) :=
        BitVec.eq_of_toNat_eq (by rw [BitVec.toNat_ofNat, BitVec.toNat_ofNat]; exact digit)
      rw [beBytes, beBytes, byte, ih (by omega)]
  exact general k k n le_rfl

theorem beBytes_congr {k m n : Nat} (same : m % 256 ^ k = n % 256 ^ k) : beBytes k m = beBytes k n := by
  rw [← beBytes_mod k m, same, beBytes_mod]

/-- Two numbers run together. -/
theorem beBytes_add (j k m n : Nat) (small : n < 256 ^ k) :
    beBytes (j + k) (m * 256 ^ k + n) = beBytes j m ++ beBytes k n := by
  induction j with
  | zero =>
    rw [Nat.zero_add, beBytes, List.nil_append]
    exact beBytes_congr (Nat.mul_add_mod_self_right m (256 ^ k) n)
  | succ j ih =>
    have place : j + 1 + k = j + k + 1 := by omega
    have high : (m * 256 ^ k + n) / 256 ^ (j + k) = m / 256 ^ j := by
      rw [Nat.add_comm j k, Nat.pow_add, ← Nat.div_div_eq_div_mul, Nat.add_comm, Nat.add_mul_div_right _ _ (by positivity),
        Nat.div_eq_of_lt small, Nat.zero_add]
    rw [place, beBytes, high, ih, beBytes, List.cons_append]

theorem beBytes_zero (k : Nat) : beBytes k 0 = List.replicate k 0 := by
  induction k with
  | zero => rfl
  | succ k ih =>
    rw [beBytes, ih, Nat.zero_div, List.replicate_succ]
    rfl

/-! ## Packed records (R174) -/

/-- The bits that fields occupy. -/
def bitsOf (fields : List (Nat × Nat)) : Nat := (fields.map Prod.fst).sum

@[simp] theorem bitsOf_append (fields rest : List (Nat × Nat)) : bitsOf (fields ++ rest) = bitsOf fields + bitsOf rest := by
  simp [bitsOf]

theorem bitsOf_flatMap {α : Type} {w : Nat} {fields : α → List (Nat × Nat)} {items : List α}
    (width : ∀ a ∈ items, bitsOf (fields a) = w) : bitsOf (items.flatMap fields) = w * items.length := by
  induction items with
  | nil => rfl
  | cons a items ih =>
    rw [List.flatMap_cons, bitsOf_append, width a (List.mem_cons_self ..),
      ih fun b member => width b (List.mem_cons_of_mem a member), List.length_cons]
    ring

@[simp] theorem bitsOf_nil : bitsOf [] = 0 := rfl
@[simp] theorem bitsOf_cons (f : Nat × Nat) (fields : List (Nat × Nat)) : bitsOf (f :: fields) = f.1 + bitsOf fields := by
  simp [bitsOf]
@[simp] theorem packBits_nil : packBits [] = 0 := rfl
@[simp] theorem packBits_zero_cons (w : Nat) (fields : List (Nat × Nat)) :
    packBits ((w, 0) :: fields) = packBits fields := by
  simp [packBits]

/-- Fields after a number are packed behind it. -/
theorem packBits_from (fields : List (Nat × Nat)) (acc : Nat) :
    fields.foldl (fun acc f => acc * 2 ^ f.1 + f.2 % 2 ^ f.1) acc = acc * 2 ^ bitsOf fields + packBits fields := by
  unfold packBits
  induction fields generalizing acc with
  | nil => simp [bitsOf]
  | cons f fields ih =>
    have width : bitsOf (f :: fields) = f.1 + bitsOf fields := by simp [bitsOf]
    rw [List.foldl_cons, List.foldl_cons, ih, ih (0 * 2 ^ f.1 + f.2 % 2 ^ f.1), width, Nat.pow_add]
    ring

theorem packBits_append (fields rest : List (Nat × Nat)) :
    packBits (fields ++ rest) = packBits fields * 2 ^ bitsOf rest + packBits rest := by
  rw [packBits, List.foldl_append, packBits_from]
  rfl

theorem packBits_lt (fields : List (Nat × Nat)) : packBits fields < 2 ^ bitsOf fields := by
  induction fields using List.reverseRecOn with
  | nil => simp [packBits, bitsOf]
  | append_singleton fields f ih =>
    have last : packBits [f] = f.2 % 2 ^ f.1 := by simp [packBits]
    have width : bitsOf (fields ++ [f]) = bitsOf fields + f.1 := by simp [bitsOf]
    have small : f.2 % 2 ^ f.1 < 2 ^ f.1 := Nat.mod_lt _ (by positivity)
    rw [packBits_append, last, width, Nat.pow_add, show bitsOf [f] = f.1 by simp [bitsOf]]
    calc packBits fields * 2 ^ f.1 + f.2 % 2 ^ f.1
        < packBits fields * 2 ^ f.1 + 2 ^ f.1 := by omega
      _ = (packBits fields + 1) * 2 ^ f.1 := by ring
      _ ≤ 2 ^ bitsOf fields * 2 ^ f.1 := Nat.mul_le_mul_right _ ih

/-- Records of w whole bytes each stand one after the other. -/
theorem beBytes_records {α : Type} (w : Nat) (fields : α → List (Nat × Nat)) (items : List α)
    (width : ∀ a ∈ items, bitsOf (fields a) = 8 * w) (rest : List (Nat × Nat)) (k : Nat) (restWidth : bitsOf rest = 8 * k) :
    beBytes (w * items.length + k) (packBits (items.flatMap fields ++ rest)) =
      (items.flatMap fun a => beBytes w (packBits (fields a))) ++ beBytes k (packBits rest) := by
  induction items with
  | nil => simp
  | cons a items ih =>
    have tail := ih fun b member => width b (List.mem_cons_of_mem a member)
    have tailWidth : bitsOf (items.flatMap fields ++ rest) = 8 * (w * items.length + k) := by
      rw [bitsOf_append, bitsOf_flatMap fun b member => width b (List.mem_cons_of_mem a member), restWidth]
      ring
    have small : packBits (items.flatMap fields ++ rest) < 256 ^ (w * items.length + k) := by
      have bound := packBits_lt (items.flatMap fields ++ rest)
      rwa [tailWidth, Nat.pow_mul] at bound
    have place : w * (a :: items).length + k = w + (w * items.length + k) := by
      rw [List.length_cons]
      ring
    rw [List.flatMap_cons, List.append_assoc, packBits_append, tailWidth, place, Nat.pow_mul,
      show 2 ^ 8 = 256 by norm_num, beBytes_add _ _ _ _ small, tail, List.flatMap_cons, List.append_assoc]

/-! ## The pieces of a page -/

theorem autoCode_eq {α : Type} (f : α → Byte) (v : Option α) : autoCode f v = (v.map f).getD 0 := by cases v <;> rfl

theorem setWidth_byte {w : Nat} (v : BitVec w) : [v.setWidth 8] = beBytes 1 v.toNat := by
  rw [beBytes_one, BitVec.ofNat_toNat]

theorem optBytes_cell (cell : Option (BitVec 16)) :
    optBytes 2 bytes16 cell = (if cell.isSome then 1 else 0) :: beBytes 2 ((cell.map BitVec.toNat).getD 0) := by
  cases cell with
  | none => rfl
  | some v => simp [optBytes, bytes16_eq]

/-- A byte with one number in its upper half and one below keeps no more of the upper than its half. -/
theorem beBytes_nibbles (high low : Nat) :
    beBytes 1 (high % 16 * 16 + low) = beBytes 1 (16 * high + low) :=
  beBytes_congr (by omega)

theorem trialPosition_eq (k : Nat) (cs : List Candidate) :
    trialPosition k cs =
      ((cs.findIdx? fun c => c.trial == .settling || c.trial == .counting).map (· + k)).getD 0 := by
  induction cs generalizing k with
  | nil => rfl
  | cons c cs ih =>
    rw [trialPosition, List.findIdx?_cons]
    by_cases running : c.trial = .settling ∨ c.trial = .counting
    · have found : (c.trial == .settling || c.trial == .counting) = true := by simpa using running
      simp [if_pos running, found]
    · have missed : (c.trial == .settling || c.trial == .counting) = false := by simpa using running
      rw [if_neg running, ih, missed]
      cases cs.findIdx? fun c => c.trial == .settling || c.trial == .counting with
      | none => rfl
      | some i =>
        simp only [Bool.false_eq_true, if_false, Option.map_some, Option.getD_some]
        omega

theorem bitsOf_pathFields (x : Slot) (p : EchoPath) : bitsOf (x.pathFields p) = 8 * 3 := rfl

@[simp] theorem bitsOf_candidateFields (c : Candidate) : bitsOf (candidateFields c) = 44 := rfl

theorem signedBits_13 (z : Int) : signedBits 13 z % 2 ^ 13 = (z % 8192).toNat := by
  unfold signedBits
  omega

theorem packBits_pathFields (x : Slot) (p : EchoPath) :
    packBits (x.pathFields p) = (p.delay % 8192).toNat * 2048 + p.power % 512 * 4 +
      if x.tuning.captureThreshold ≤ p.power then 2 else 0 := by
  have eligible : (x.eligible p).toNat % 2 ^ 1 = if x.tuning.captureThreshold ≤ p.power then 1 else 0 := by
    unfold Slot.eligible
    split <;> simp [*]
  simp only [packBits, Slot.pathFields, List.foldl_cons, List.foldl_nil, signedBits_13, eligible]
  split <;> omega

/-- A candidate record as a number. -/
def candidateRecord (c : Candidate) : Nat :=
  (c.reference % 8192).toNat * 2 ^ 31 + c.energy % 4096 * 2 ^ 19 + trialCode c.trial * 2 ^ 16 + c.errors % 65536

@[simp] theorem packBits_candidateFields (c : Candidate) : packBits (candidateFields c) = candidateRecord c := by
  have trial : trialCode c.trial % 2 ^ 3 = trialCode c.trial := by cases c.trial <;> rfl
  simp only [packBits, candidateFields, candidateRecord, List.foldl_cons, List.foldl_nil, signedBits_13, trial]
  omega

/-- The record at a place of the candidate list, 0 beyond its end. -/
def candidateEntry (cs : List Candidate) (i : Nat) : Nat := (cs[i]?.map candidateRecord).getD 0

@[simp] theorem packBits_zeros (k w : Nat) : packBits (List.replicate k (w, 0)) = 0 := by
  induction k with
  | zero => rfl
  | succ k ih => rw [List.replicate_succ', packBits_append, ih]; simp [packBits]

@[simp] theorem bitsOf_zeros (k w : Nat) : bitsOf (List.replicate k (w, 0)) = w * k := by
  simp [bitsOf, Nat.mul_comm]

theorem packRecords_candidates (cs : List Candidate) :
    packRecords 4 44 candidateFields cs =
      beBytes 22 (candidateEntry cs 0 * 2 ^ 132 + candidateEntry cs 1 * 2 ^ 88 + candidateEntry cs 2 * 2 ^ 44 +
        candidateEntry cs 3) := by
  unfold packRecords
  congr 1
  match cs with
  | [] => rfl
  | [a] => simp [packBits_append, candidateEntry]
  | [a, b] => simp [packBits_append, candidateEntry]
  | [a, b, c] =>
    simp [packBits_append, candidateEntry]
    omega
  | a :: b :: c :: d :: rest =>
    simp [packBits_append, candidateEntry]
    omega

theorem packRecords_paths (x : Slot) (echo : List EchoPath) :
    packRecords 8 24 x.pathFields echo =
      ((echo.take 8).flatMap fun p => beBytes 3 ((p.delay % 8192).toNat * 2048 + p.power % 512 * 4 +
        if x.tuning.captureThreshold ≤ p.power then 2 else 0)) ++ List.replicate (24 - 3 * echo.length) 0 := by
  have records := beBytes_records 3 x.pathFields (echo.take 8) (fun p _ => bitsOf_pathFields x p)
    (List.replicate (8 - echo.length) (24, 0)) (24 - 3 * echo.length) (by rw [bitsOf_zeros]; omega)
  have total : 3 * (echo.take 8).length + (24 - 3 * echo.length) = 8 * 24 / 8 := by
    rw [List.length_take]
    omega
  rw [total, packBits_zeros, beBytes_zero] at records
  simp only [packBits_pathFields] at records
  exact records

/-! ## The pages -/

theorem TuningRecord.length_bytes (r : TuningRecord) : r.bytes.length = 21 := by
  simp [TuningRecord.bytes, optBytes_cell]

theorem Slot.length_activePage (x : Slot) : x.activePage.length = 23 := by
  unfold Slot.activePage
  split <;> simp [TuningRecord.length_bytes]

theorem length_optBytes {α : Type} {k : Nat} {f : α → List Byte} (width : ∀ a, (f a).length = k) (v : Option α) :
    (optBytes k f v).length = k + 1 := by
  cases v <;> simp [optBytes, width]

@[simp] theorem SigWord.length_bytes (w : SigWord) : (SigWord.bytes w).length = 8 := rfl

theorem Slot.length_statusPage (x : Slot) : x.statusPage.length = 30 := by
  have word : ∀ w, (optBytes 8 SigWord.bytes w).length = 9 := length_optBytes SigWord.length_bytes
  have detected : ∀ d, (optBytes 2 Structure.bytes d).length = 3 := length_optBytes fun _ => rfl
  simp [Slot.statusPage, word, detected]

theorem Slot.length_echoPage (x : Slot) : x.echoPage.length = 55 := by
  simp [Slot.echoPage, packRecords]

theorem Slot.length_qualityPage (x : Slot) : x.qualityPage.length = 46 := by
  simp [Slot.qualityPage, length_optBytes, SlotCounters.list]

theorem Slot.windowSpreads_eq (x : Slot) :
    x.windowSpreads.toNat =
      if x.window.isSome ∧ (x.window.map x.captured).getD 0 < x.total then 1 else 0 := by
  unfold Slot.windowSpreads Slot.spreads
  cases x.window with
  | none => rfl
  | some r => by_cases less : x.captured r < x.total <;> simp [less]

theorem pageHead_eq (n : SlotId) (x : Slot) : pageHead n x = BitVec.ofNat 8 (16 * n.val + (acqCode x.acq).toNat) := by
  unfold pageHead
  cases x.acq <;> revert n <;> decide

theorem slotOf_some {b : Byte} {n : SlotId} (found : slotOf b = some n) : b.toNat = n.val := by
  unfold slotOf at found
  split at found
  · rw [← Option.some.inj found]
  · cases found

theorem page_none {x : Slot} {page : Byte} (beyond : 4 < page.toNat) : x.page page = none := by
  have notListed {k : Byte} (low : k.toNat ≤ 4) : ¬page = k := by
    rintro rfl
    omega
  rw [Slot.page, if_neg (notListed (by decide)), if_neg (notListed (by decide)), if_neg (notListed (by decide)),
    if_neg (notListed (by decide)), if_neg (notListed (by decide))]

/-- Settles O16: the lengths, the request by its page, the codes, and each page by its pieces. -/
theorem slotReadReturnsAPage : Obligations.SlotReadReturnsAPage := by
  refine ⟨fun x => ⟨x.programmed.length_bytes, x.length_activePage, x.length_statusPage, x.length_echoPage,
    x.length_qualityPage⟩, fun l tag slot page s serves => ?_⟩
  obtain ⟨t, ran, replied, same⟩ := served (c := .slotRead l tag slot page) serves rfl
  have answer : s.applyRequest l (.slotRead slot page) = s.slotRead slot page := rfl
  rw [answer] at replied same
  have unchanged : (s.slotRead slot page).state = s := by
    unfold State.slotRead
    split
    · rfl
    · split <;> rfl
  rw [unchanged] at same
  refine ⟨t, ran, same, fun bad => ?refused, fun n named => ?read, ⟨rfl, rfl, rfl, rfl, rfl, rfl, rfl, rfl, rfl, rfl⟩,
    pageHead_eq, fun x => ?pages⟩
  case refused =>
    have refuses : s.slotRead slot page = s.refuse .badArg [] := by
      unfold State.slotRead
      split
      · rfl
      · next n found =>
        have small := slotOf_some found
        have unknown : (s.slot n).page page = none := page_none (by omega)
        rw [unknown]
    rw [refuses] at replied
    exact replied
  case read =>
    have found : slotOf slot = some n := by
      have small : slot.toNat < 6 := by omega
      rw [slotOf, dif_pos small]
      exact congrArg some (Fin.ext named)
    rw [State.slotRead, found] at replied
    refine ⟨?_, ?_, ?_, ?_, ?_⟩ <;>
    · rintro rfl
      exact replied
  case pages =>
    intro flag fields word timer captured trial entry
    have bytes : ∀ r : TuningRecord, r.bytes = fields r := fun r => by
      simp only [fields, flag, TuningRecord.bytes, autoCode_eq, optBytes_cell, List.append_assoc, List.cons_append,
        List.nil_append]
    refine ⟨bytes _, fun inOff => ?_, fun r active => ?_, ?status, ?echo, ?quality⟩
    · rw [Slot.activePage, inOff]
    · have differs : (r != x.programmed) = decide (r ≠ x.programmed) := by
        rw [Bool.eq_iff_iff]
        simp
      rw [Slot.activePage, active, ← bytes, ← differs]
      rfl
    case status =>
      have words : ∀ w, optBytes 8 SigWord.bytes w = word w := fun w => by
        cases w with
        | none => rfl
        | some w =>
          simp only [word, ← bytes16_eq, ← setWidth_byte]
          rfl
      have shown : x.phase.shown = timer := by
        simp only [timer]
        cases x.phase <;> rfl
      rw [Slot.statusPage, words, words, shown, setWidth_byte]
      cases x.detected <;> rfl
    case echo =>
      have flags : beBytes 1 (packBits [(4, x.echo.length), (1, 0), (1, x.window.isSome.toNat),
          (1, x.movePending.toNat), (1, x.windowSpreads.toNat)]) =
          beBytes 1 (16 * x.echo.length + 4 * x.window.isSome.toNat + 2 * x.movePending.toNat +
            if x.window.isSome ∧ captured < x.total then 1 else 0) := by
        have spreads : x.windowSpreads.toNat = if x.window.isSome ∧ captured < x.total then 1 else 0 :=
          x.windowSpreads_eq
        have present := Bool.toNat_le x.window.isSome
        have moving := Bool.toNat_le x.movePending
        rw [spreads]
        refine beBytes_congr ?_
        simp only [packBits, List.foldl_cons, List.foldl_nil]
        split <;> omega
      have trials : beBytes 1 (packBits [(4, x.candidates.length), (4, x.trialInProgress)]) =
          beBytes 1 (16 * x.candidates.length + trial % 16) := by
        have position : x.trialInProgress = trial := by
          rw [Slot.trialInProgress, trialPosition_eq]
        rw [position, ← beBytes_nibbles]
        simp [packBits]
      have energies : packBits [(12, x.total), (12, (x.window.map x.captured).getD 0)] =
          x.total % 4096 * 4096 + captured % 4096 := by
        simp [packBits]
        rfl
      have entries : ∀ i, candidateEntry x.candidates i = entry i := fun i => by
        simp only [candidateEntry, entry]
        cases x.candidates[i]? <;> rfl
      rw [Slot.echoPage, flags, trials, energies, packRecords_paths, packRecords_candidates]
      simp only [entries, List.append_assoc]
    case quality =>
      have counters : x.counters.list.flatMap (beBytes 4) =
          beBytes 4 x.counters.delivered ++ (beBytes 4 x.counters.corrected ++ (beBytes 4 x.counters.bytesCorrected ++
            (beBytes 4 x.counters.uncorrectable ++ (beBytes 4 x.counters.lockLosses ++
              (beBytes 4 x.counters.acqFailures ++ (beBytes 4 x.counters.nulls ++
                beBytes 4 x.counters.unrouted)))))) := by
        simp [SlotCounters.list]
      simp only [Slot.qualityPage, counters, List.append_assoc]
      congr 1
      · cases x.channelPower <;> rfl
      · congr 1
        · cases x.freqOffset <;> rfl
        · congr 1
          cases x.mer <;> rfl

end Sys2Proof.Machine
end

section
/-! SUPPORT. Acquisition (R34 to R55): SENSE and SYNC, the ends of the phase timers, and word results outside TRACK. -/

namespace Sys2Proof.Machine

open Sys2Proof

/-- A timed row that is not due leaves the state. -/
theorem State.whenDue_of_not_due (s t : State) {due : Bool} (idle : due = false) : s.whenDue due t = s := by
  simp [State.whenDue, idle]

theorem Slot.ranOut_of {x : Slot} {a : AcqState} (acq : x.acq = a) (out : x.phase = .ticks 0) : x.ranOut a = true := by
  simp [Slot.ranOut, acq, out]

/-! ## SENSE and SYNC (R37 to R39) -/

/-- A pair is searched when no expectation that is set differs from it. -/
theorem Slot.searches_iff (x : Slot) (m : CarrierMode) (g : Guard) :
    x.searches m g = true ↔ (x.tuning.mode = none ∨ x.tuning.mode = some m) ∧
      (x.tuning.guardFraction = none ∨ x.tuning.guardFraction = some g) := by
  simp [Slot.searches]

/-- Settles O17: each moment of the SENSE cycle by its row, the search by whether the pair is allowed. -/
theorem senseAndSyncFindTheSignal : Obligations.SenseAndSyncFindTheSignal := by
  refine ⟨fun n s locked sense out => ⟨fun belowFs measuring strong => ?found, fun belowFs measuring weak => ?waits,
    fun waiting => ?measures⟩, fun n m g milliHz s locked sync low high => ⟨fun mode guard => ?pairFound,
    fun other => ?nothing⟩⟩
  case found =>
    have due : ((s.slot n).ranOut .sense && !(s.slot n).senseWaiting) = true := by
      rw [Slot.ranOut_of sense out, measuring]
      rfl
    have strongEnough : 10 * (s.slot n).tuning.threshold ≤ storedLevel belowFs := strong
    refine congrArg Host.Outcome.next ((State.whenDue_of_due s _ _ locked due).trans ?_)
    rw [Slot.endMeasurement, if_pos strongEnough]
    rfl
  case waits =>
    have due : ((s.slot n).ranOut .sense && !(s.slot n).senseWaiting) = true := by
      rw [Slot.ranOut_of sense out, measuring]
      rfl
    have tooWeak : ¬10 * (s.slot n).tuning.threshold ≤ storedLevel belowFs := not_le.mpr weak
    refine congrArg Host.Outcome.next ((State.whenDue_of_due s _ _ locked due).trans ?_)
    rw [Slot.endMeasurement, if_neg tooWeak]
    rfl
  case measures =>
    have due : ((s.slot n).ranOut .sense && (s.slot n).senseWaiting) = true := by
      rw [Slot.ranOut_of sense out, waiting]
      rfl
    exact congrArg Host.Outcome.next (State.whenDue_of_due s _ _ locked due)
  case pairFound =>
    have due : ((s.slot n).acq == .sync && (s.slot n).searches m g && offsetInPullIn milliHz) = true := by
      have searched := ((s.slot n).searches_iff m g).mpr ⟨mode, guard⟩
      simp [sync, searched, offsetInPullIn, low, high]
    exact congrArg Host.Outcome.next (State.whenDue_of_due s _ _ locked due)
  case nothing =>
    have excluded : (s.slot n).searches m g = false := by
      rw [← Bool.not_eq_true, Slot.searches_iff]
      rintro ⟨mode, guard⟩
      rcases other with ⟨e, differs, expected⟩ | ⟨e, differs, expected⟩
      · rw [expected] at mode
        simp [differs] at mode
      · rw [expected] at guard
        simp [differs] at guard
    have idle : ((s.slot n).acq == .sync && (s.slot n).searches m g && offsetInPullIn milliHz) = false := by
      rw [excluded, Bool.and_false, Bool.false_and]
    exact congrArg Host.Outcome.next (State.whenDue_of_not_due s _ idle)

/-! ## The phase timers (R50 to R55) -/

/-- A failure of a slot's attempt for another reason than WINDOW_FAIL. -/
theorem State.failAttempt_eq (s : State) (n : SlotId) {r : FailureReason} (other : r ≠ .windowFail) :
    s.failAttempt n r = (s.setSlot n (failed r (s.slot n))).latch (.acqFailed n) := by
  rw [State.failAttempt, Slot.fail_eq r _ other]

theorem State.expireHold_eq (s : State) (n : SlotId) :
    s.expireHold n = (s.setSlot n (attemptStarted .sync 4050000 { s.slot n with
      attempts := 0
      counters := { (s.slot n).counters with
        lockLosses := min ((s.slot n).counters.lockLosses + 1) 4294967295 } })).latch (.lockLost n) := by
  rw [State.expireHold, Slot.expireHold, Slot.attemptStart_sync]
  rfl

/-- Settles O18: each timer's end by its row. -/
theorem phaseTimersEndTheirStates : Obligations.PhaseTimersEndTheirStates := by
  intro n s locked
  refine ⟨fun sync out => ?sync, fun wait out => ?wait, fun signal last => ?signal, fun backoff out => ?backoff,
    fun hold out => ?hold⟩
  case sync =>
    refine congrArg Host.Outcome.next ((State.whenDue_of_due s _ _ locked (Slot.ranOut_of sync out)).trans ?_)
    exact s.failAttempt_eq n (by decide)
  case wait =>
    refine congrArg Host.Outcome.next ((State.whenDue_of_due s _ _ locked (Slot.ranOut_of wait out)).trans ?_)
    exact s.failAttempt_eq n (by decide)
  case signal =>
    have due : ((s.slot n).acq == .signal && decide (framesLeft (s.slot n).phase ≤ 1)) = true := by
      simp [signal, last, framesLeft]
    refine congrArg Host.Outcome.next ((State.whenDue_of_due s _ _ locked due).trans ?_)
    exact s.failAttempt_eq n (by decide)
  case backoff =>
    refine congrArg Host.Outcome.next ((State.whenDue_of_due s _ _ locked (Slot.ranOut_of backoff out)).trans ?_)
    rw [Slot.startSense_clear]
  case hold =>
    refine congrArg Host.Outcome.next ((State.whenDue_of_due s _ _ locked (Slot.ranOut_of hold out)).trans ?_)
    exact s.expireHold_eq n

/-! ## Word results in SIGNAL (R41 to R46) -/

theorem differs_iff {α : Type} [DecidableEq α] (expected : Option α) (found : α) :
    differs expected found = true ↔ ∃ e, expected = some e ∧ e ≠ found := by
  cases expected <;> simp [differs]

theorem Slot.mismatches_iff (x : Slot) (w : SigWord) :
    x.mismatches w = true ↔
      (∃ e, x.tuning.mode = some e ∧ e ≠ w.mode) ∨ (∃ e, x.tuning.guardFraction = some e ∧ e ≠ w.guardFraction) ∨
      (∃ e, x.tuning.constellation = some e ∧ e ≠ w.constellation) ∨ (∃ e, x.tuning.rate = some e ∧ e ≠ w.rate) ∨
      (∃ e, x.tuning.cellId = some e ∧ e ≠ w.cellId) := by
  simp only [Slot.mismatches, Bool.or_eq_true, differs_iff, or_assoc]

theorem Slot.disqualifies_iff (x : Slot) (w : SigWord) :
    x.disqualifies w = true ↔ w.announced = true ∨ x.detected ≠ some ⟨w.mode, w.guardFraction⟩ := by
  simp [Slot.disqualifies]

theorem followsWord_iff (half : Option SigWord) (w : SigWord) :
    followsWord half w = true ↔ ∃ v, half = some v ∧ w = { v with frameIndex := v.frameIndex + 1 } := by
  cases half with
  | none => simp [followsWord]
  | some v => simp [followsWord_some]

theorem sameStructure_iff (v w : SigWord) :
    sameStructure v w = true ↔ v.mode = w.mode ∧ v.guardFraction = w.guardFraction := by
  simp [sameStructure]

/-- A result moves the frame position while a record is present. -/
theorem Slot.advanceInSignal_eq (x : Slot) (r : WordResult) :
    x.advanceInSignal r =
      { x with framePos := if x.sigRecord = none then x.framePos else signalPosition x.framePos r } := by
  unfold Slot.advanceInSignal
  cases x.sigRecord <;> rfl

/-- A frame end in SIGNAL is its word result after the offset and the position are stored. -/
theorem exec_frameEnd_signal {s : State} {n : SlotId} (locked : s.power = .locked) (signal : (s.slot n).acq = .signal)
    (r : WordResult) (milliHz : Int) (arrivals : List Arrival) (pp ep : Nat) (order : FrameOrder) :
    exec (.signallingFrameEnd n r milliHz arrivals pp ep order) s =
      .next ((s.setSlot n (((s.slot n).followCarrier milliHz).advanceInSignal r)).signalResult n r) := by
  have due : (s.slot n).acq.demodulates = true := by rw [signal]; rfl
  refine congrArg Host.Outcome.next ((State.whenDue_of_due s _ _ locked due).trans ?_)
  have still : ((s.slot n).followCarrier milliHz).acq = .signal := signal
  rw [State.frameEnd, still]

section

variable {s : State} {n : SlotId} {x : Slot} {w : SigWord}

theorem signalResult_mismatch (mismatch : x.mismatches w = true) :
    (s.setSlot n x).signalResult n (.good w) =
      ((s.setSlot n (failed .mismatch x)).latch (.mismatch n)).latch (.acqFailed n) := by
  simp only [State.signalResult, State.slot_setSlot_same, mismatch, if_true]
  rw [State.failAttempt_eq _ _ (by decide), State.slot_latch, State.slot_setSlot_same, State.setSlot_latch,
    State.setSlot_setSlot]

theorem signalResult_accepts (fits : x.mismatches w = false) (qualifies : x.disqualifies w = false)
    (follows : followsWord x.halfMade w = true) :
    (s.setSlot n x).signalResult n (.good w) = s.setSlot n (x.acceptWord w) := by
  simp [State.signalResult, fits, qualifies, follows]

theorem signalResult_half (fits : x.mismatches w = false) (qualifies : x.disqualifies w = false)
    (alone : followsWord x.halfMade w = false) :
    (s.setSlot n x).signalResult n (.good w) = (s.setSlot n x).countResult n (some w) := by
  simp [State.signalResult, fits, qualifies, alone]

theorem signalResult_disqualified (fits : x.mismatches w = false) (disqualified : x.disqualifies w = true) :
    (s.setSlot n x).signalResult n (.good w) = (s.setSlot n x).countResult n none := by
  simp [State.signalResult, fits, disqualified]

theorem countResult_goesOn {k : Nat} (half : Option SigWord) (phase : x.phase = .frames (k + 2)) :
    (s.setSlot n x).countResult n half = s.setSlot n { x with halfMade := half, phase := .frames (k + 1) } := by
  simp [State.countResult, phase, framesLeft]

/-- The sixth result: what the failure makes of the slot does not depend on the agreement or the timer. -/
theorem countResult_fails (half : Option SigWord) (phase : x.phase = .frames 1) :
    (s.setSlot n x).countResult n half = (s.setSlot n (failed .signalTimeout x)).latch (.acqFailed n) := by
  have same : failed .signalTimeout { x with halfMade := half, phase := .frames 0 } = failed .signalTimeout x := by
    unfold failed
    dsimp only
    split <;> rfl
  simp only [State.countResult, State.slot_setSlot_same, phase, framesLeft, Nat.sub_self, if_true,
    State.setSlot_setSlot]
  rw [State.failAttempt_eq _ _ (by decide), State.slot_setSlot_same, State.setSlot_setSlot, same]

end

/-- Settles O19, by the result of the frame end. -/
theorem signallingWordsInSignal : Obligations.SignallingWordsInSignal := by
  refine ⟨Slot.mismatches_iff, fun n milliHz arrivals pp ep order s locked signal => ?_⟩
  intro y x result
  have ran : ∀ r, result r = .next ((s.setSlot n (y.advanceInSignal r)).signalResult n r) := fun r =>
    exec_frameEnd_signal locked signal r milliHz arrivals pp ep order
  have good : ∀ w, y.advanceInSignal (.good w) = x w.frameIndex := fun w => y.advanceInSignal_eq (.good w)
  have bad : y.advanceInSignal .bad = x (y.framePos + 1) := y.advanceInSignal_eq .bad
  have qualified : ∀ w, w.announced = false → y.detected = some ⟨w.mode, w.guardFraction⟩ →
      y.disqualifies w = false := fun w unannounced detected => by
    rw [← Bool.not_eq_true, Slot.disqualifies_iff, unannounced]
    simp [detected]
  have alone : ∀ w, (∀ v, y.halfMade = some v → w ≠ { v with frameIndex := v.frameIndex + 1 }) →
      followsWord y.halfMade w = false := fun w differs => by
    rw [← Bool.not_eq_true, followsWord_iff]
    rintro ⟨v, half, follows⟩
    exact differs v half follows
  refine ⟨fun w mismatch => ?mismatch, fun w v fits unannounced detected half follows => ?accepts,
    fun w k fits unannounced detected differs phase => ?firstOfTwo, fun w k fits disqualified phase => ?disqualified,
    fun k phase => ?bad, fun phase => ?lastBad, fun w fits phase completesNone => ?lastGood, ?uncounted⟩
  case mismatch =>
    rw [ran, good, signalResult_mismatch (x := x w.frameIndex) mismatch]
  case accepts =>
    have accepted : result (.good w) = .next (s.setSlot n ((x w.frameIndex).acceptWord w)) := by
      rw [ran, good, signalResult_accepts (x := x w.frameIndex) fits (qualified w unannounced detected)
        ((followsWord_iff _ w).mpr ⟨v, half, follows⟩)]
    refine ⟨fun first => ?_, fun r known mode guard => ?_, fun r known other => ?_⟩
    · have record : (x w.frameIndex).sigRecord = none := first
      rw [accepted, Slot.acceptWord, record]
      rfl
    · have record : (x w.frameIndex).sigRecord = some r := known
      rw [accepted, Slot.acceptWord, record]
      dsimp only
      rw [if_pos ((sameStructure_iff r w).mpr ⟨mode, guard⟩)]
      rfl
    · have record : (x w.frameIndex).sigRecord = some r := known
      have differs : ¬sameStructure r w = true := fun same => by
        obtain ⟨mode, guard⟩ := (sameStructure_iff r w).mp same
        exact other.elim (fun no => no mode) fun no => no guard
      rw [accepted, Slot.acceptWord, record]
      dsimp only
      rw [if_neg differs]
      rfl
  case firstOfTwo =>
    rw [ran, good, signalResult_half (x := x w.frameIndex) fits (qualified w unannounced detected) (alone w differs),
      countResult_goesOn (x := x w.frameIndex) (some w) phase]
  case disqualified =>
    rw [ran, good, signalResult_disqualified (x := x w.frameIndex) fits ((y.disqualifies_iff w).mpr disqualified),
      countResult_goesOn (x := x w.frameIndex) none phase]
  case bad =>
    rw [ran, bad]
    exact congrArg Host.Outcome.next (countResult_goesOn (x := x (y.framePos + 1)) none phase)
  case lastBad =>
    rw [ran, bad]
    exact congrArg Host.Outcome.next (countResult_fails (x := x (y.framePos + 1)) none phase)
  case lastGood =>
    rw [ran, good]
    by_cases disqualified : y.disqualifies w = true
    · rw [signalResult_disqualified (x := x w.frameIndex) fits disqualified,
        countResult_fails (x := x w.frameIndex) none phase]
    · have qualifies : y.disqualifies w = false := Bool.eq_false_iff.mpr disqualified
      have differs := completesNone.resolve_left (mt (y.disqualifies_iff w).mpr disqualified)
      rw [signalResult_half (x := x w.frameIndex) fits qualifies (alone w differs),
        countResult_fails (x := x w.frameIndex) (some w) phase]
  case uncounted =>
    have kept : y.advanceInSignal .uncounted = y := by
      rw [Slot.advanceInSignal_eq]
      simp only [signalPosition, ite_self]
    rw [ran, kept]
    rfl

/-! ## Word results in WINDOW, FEC_WAIT and HOLD (R41, R94) -/

/-- Settles O20, by the state of the slot. -/
theorem wordsMoveTheFramePosition : Obligations.WordsMoveTheFramePosition := by
  intro n r milliHz arrivals pp ep order s locked state
  have due : (s.slot n).acq.demodulates = true := by rcases state with acq | acq | acq <;> rw [acq] <;> rfl
  have ran : exec (.signallingFrameEnd n r milliHz arrivals pp ep order) s =
      .next (s.frameEnd n r milliHz arrivals pp ep order) :=
    congrArg Host.Outcome.next (State.whenDue_of_due s _ _ locked due)
  have moved : (∀ w, r = .good w → nextPosition (s.slot n).framePos r = w.frameIndex) ∧
      (r = .bad → nextPosition (s.slot n).framePos r = (s.slot n).framePos + 1) :=
    ⟨fun w is => by rw [is]; rfl, fun is => by rw [is]; rfl⟩
  obtain ⟨good, bad⟩ := moved
  by_cases hold : (s.slot n).acq = .hold
  · refine ⟨nextPosition (s.slot n).framePos r, ((s.slot n).followCarrier milliHz).holdMer pp ep order, ?_, good, bad,
      fun no => absurd hold no, fun _ other => ?_, fun _ is => ?_⟩
    · have still : ((s.slot n).followCarrier milliHz).acq = .hold := hold
      rw [ran, State.frameEnd, still]
      rfl
    · cases order with
      | exitFirst => exact absurd rfl other
      | _ => rfl
    · rw [is]
      rfl
  · refine ⟨nextPosition (s.slot n).framePos r, (s.slot n).mer, ?_, good, bad, fun _ => rfl, fun is => absurd is hold,
      fun is => absurd is hold⟩
    rw [ran, State.frameEnd]
    rcases state with acq | acq | acq
    · have still : ((s.slot n).followCarrier milliHz).acq = .window := acq
      rw [still]
      rfl
    · have still : ((s.slot n).followCarrier milliHz).acq = .fecWait := acq
      rw [still]
      rfl
    · exact absurd acq hold

end Sys2Proof.Machine
end

section
/-! SUPPORT. Frame ends in TRACK (R57 to R61, R67, R80 to R82, R94): the word, the rebuild, and the order of the two. -/

namespace Sys2Proof.Machine

open Sys2Proof

/-! ## What a word does in TRACK (R57 to R59) -/

/-- The word is announced and compatible. -/
def Slot.announcedBy (x : Slot) : WordResult → Bool
  | .good w => x.compatible w && w.announced
  | .bad => false
  | .uncounted => false

/-- The word confirms an unannounced change. -/
def Slot.confirmedBy (x : Slot) : WordResult → Bool
  | .good w => !x.compatible w && followsWord x.halfMade w
  | .bad => false
  | .uncounted => false

/-- The agreement that a word leaves half made. -/
def Slot.halfAfter (x : Slot) : WordResult → Option SigWord
  | .good w => if x.compatible w then none else some w
  | .bad => none
  | .uncounted => none

/-- With a change pending the position reaches the superframe boundary. -/
def Slot.boundaryBy (x : Slot) (r : WordResult) : Bool :=
  (x.changePending || x.announcedBy r) && nextPosition x.framePos r == 3

/-- The frame end's word takes the slot out of TRACK. -/
def Slot.exitsBy (x : Slot) (r : WordResult) : Bool := x.confirmedBy r || x.boundaryBy r

/-- The frame end's word latches PARAM_CHANGE. -/
def Slot.paramBy (x : Slot) (r : WordResult) : Bool := x.confirmedBy r || (x.announcedBy r && !x.changePending)

/-- The state that an exit enters. -/
def Slot.exitTo (x : Slot) : WordResult → Slot → Slot
  | .good w => if x.confirmedBy (.good w) && !x.keepsStructure w then Slot.enterSync else Slot.enterSignal
  | .bad => Slot.enterSignal
  | .uncounted => Slot.enterSignal

/-- The slot after a word in TRACK. -/
def Slot.afterWord (r : WordResult) (x : Slot) : Slot :=
  if x.exitsBy r then
    x.exitTo r { x.advanceFrame r with mer := none, changePending := false, halfMade := none }
  else
    { x.advanceFrame r with changePending := x.changePending || x.announcedBy r, halfMade := x.halfAfter r }

theorem State.latchIf_setSlot (s : State) (n : SlotId) (x : Slot) (b : Bool) (f : EventFlag) :
    (s.latchIf b f).setSlot n x = (s.setSlot n x).latchIf b f := by cases b <;> rfl

theorem Slot.afterWord_exits {x : Slot} {r : WordResult} (exits : x.exitsBy r = true) :
    x.afterWord r = x.exitTo r { x.advanceFrame r with mer := none, changePending := false, halfMade := none } :=
  if_pos exits

theorem Slot.afterWord_stays {x : Slot} {r : WordResult} (stays : ¬x.exitsBy r = true) :
    x.afterWord r =
      { x.advanceFrame r with changePending := x.changePending || x.announcedBy r, halfMade := x.halfAfter r } :=
  if_neg stays

theorem State.endCaptures_latchIf (s : State) (n : SlotId) (b : Bool) (f : EventFlag) :
    (s.latchIf b f).endCaptures n = (s.endCaptures n).latchIf b f := by cases b <;> rfl

theorem State.watch_latchIf (s : State) (n : SlotId) (half : Option SigWord) (b : Bool) (f : EventFlag) :
    (s.latchIf b f).watch n half = (s.watch n half).latchIf b f := by
  unfold State.watch State.superframeBoundary State.leaveTrack
  rw [State.slot_latchIf, State.latchIf_setSlot, State.slot_latchIf]
  split
  · rw [State.latchIf_setSlot, State.endCaptures_latchIf]
  · rfl

theorem Slot.exitTo_unconfirmed {x : Slot} {r : WordResult} (unconfirmed : x.confirmedBy r = false) :
    x.exitTo r = Slot.enterSignal := by
  cases r with
  | good w => simp [Slot.exitTo, unconfirmed]
  | _ => rfl

/-- A word that confirms no change: its position, its pending change and its agreement, and the boundary when it is met. -/
theorem State.watch_eq (s : State) (n : SlotId) (x : Slot) (r : WordResult) (unconfirmed : x.confirmedBy r = false) :
    (s.setSlot n { x.advanceFrame r with changePending := x.changePending || x.announcedBy r }).watch n
        (x.halfAfter r) =
      if x.exitsBy r then (s.setSlot n (x.afterWord r)).endCaptures n else s.setSlot n (x.afterWord r) := by
  have exits : x.exitsBy r = ((x.changePending || x.announcedBy r) && nextPosition x.framePos r == 3) := by
    rw [Slot.exitsBy, unconfirmed, Bool.false_or, Slot.boundaryBy]
  unfold State.watch State.superframeBoundary State.leaveTrack
  simp only [State.slot_setSlot_same, State.setSlot_setSlot]
  by_cases boundary : x.exitsBy r = true
  · rw [if_pos boundary, Slot.afterWord_exits boundary, Slot.exitTo_unconfirmed unconfirmed]
    exact if_pos (exits ▸ boundary)
  · rw [if_neg boundary, Slot.afterWord_stays boundary]
    exact if_neg (exits ▸ boundary)

/-- A word in TRACK: the slot, the flag and the captures. -/
theorem State.trackResult_eq (s : State) (n : SlotId) (r : WordResult) :
    s.trackResult n r =
      if (s.slot n).exitsBy r then
        ((s.setSlot n ((s.slot n).afterWord r)).latchIf ((s.slot n).paramBy r) (.paramChange n)).endCaptures n
      else (s.setSlot n ((s.slot n).afterWord r)).latchIf ((s.slot n).paramBy r) (.paramChange n) := by
  cases r with
  | bad =>
    have pending : ((s.slot n).changePending || (s.slot n).announcedBy .bad) = (s.slot n).changePending :=
      Bool.or_false _
    have watched := s.watch_eq n (s.slot n) .bad rfl
    rw [pending] at watched
    exact watched
  | uncounted =>
    have pending : ((s.slot n).changePending || (s.slot n).announcedBy .uncounted) = (s.slot n).changePending :=
      Bool.or_false _
    have watched := s.watch_eq n (s.slot n) .uncounted rfl
    rw [pending] at watched
    exact watched
  | good w =>
    rw [State.trackResult]
    by_cases compatible : (s.slot n).compatible w = true
    · have unconfirmed : (s.slot n).confirmedBy (.good w) = false := by simp [Slot.confirmedBy, compatible]
      have half : (s.slot n).halfAfter (.good w) = none := if_pos compatible
      have watched := s.watch_eq n (s.slot n) (.good w) unconfirmed
      have param : (s.slot n).paramBy (.good w) = (w.announced && !(s.slot n).changePending) := by
        simp [Slot.paramBy, unconfirmed, Slot.announcedBy, compatible]
      have announced : (s.slot n).announcedBy (.good w) = w.announced := by simp [Slot.announcedBy, compatible]
      rw [half, announced] at watched
      rw [if_pos compatible, param]
      cases announces : w.announced with
      | false =>
        rw [announces, Bool.or_false] at watched
        exact watched
      | true =>
        rw [announces, Bool.or_true] at watched
        have announce : (s.setSlot n ((s.slot n).advanceFrame (.good w))).announce n =
            (s.setSlot n { (s.slot n).advanceFrame (.good w) with changePending := true }).latchIf
              (!(s.slot n).changePending) (.paramChange n) := by
          rw [State.announce, State.slot_setSlot_same, State.setSlot_setSlot]
          rfl
        rw [if_pos rfl, announce, State.watch_latchIf, watched, Bool.true_and]
        split
        · rw [State.endCaptures_latchIf]
        · rfl
    · have incompatible : (s.slot n).compatible w = false := Bool.eq_false_iff.mpr compatible
      have unannounced : (s.slot n).announcedBy (.good w) = false := by simp [Slot.announcedBy, incompatible]
      rw [if_neg compatible]
      by_cases follows : followsWord (s.slot n).halfMade w = true
      · have confirmed : (s.slot n).confirmedBy (.good w) = true := by simp [Slot.confirmedBy, incompatible, follows]
        have exits : (s.slot n).exitsBy (.good w) = true := by rw [Slot.exitsBy, confirmed, Bool.true_or]
        have param : (s.slot n).paramBy (.good w) = true := by rw [Slot.paramBy, confirmed, Bool.true_or]
        have entered : (s.slot n).exitTo (.good w) =
            if (s.slot n).keepsStructure w then Slot.enterSignal else Slot.enterSync := by
          cases keeps : (s.slot n).keepsStructure w <;> simp [Slot.exitTo, confirmed, keeps]
        rw [if_pos follows, if_pos exits, param, Slot.afterWord_exits exits, entered, State.confirmChange,
          State.leaveTrack, State.slot_latch, State.slot_setSlot_same, State.setSlot_latch, State.setSlot_setSlot]
        rfl
      · have unconfirmed : (s.slot n).confirmedBy (.good w) = false := by
          simp [Slot.confirmedBy, Bool.eq_false_iff.mpr follows]
        have half : (s.slot n).halfAfter (.good w) = some w := if_neg compatible
        have param : (s.slot n).paramBy (.good w) = false := by simp [Slot.paramBy, unconfirmed, unannounced]
        have watched := s.watch_eq n (s.slot n) (.good w) unconfirmed
        rw [half, unannounced, Bool.or_false] at watched
        rw [if_neg follows, param]
        exact watched

/-! ## What a frame end in TRACK leaves -/

/-- From s to t: the slot n has become Y; ECHO_SPREAD and PARAM_CHANGE are latched as said and no other flag; the captures
of the slot have ended or all stand; and nothing else has changed. -/
structure TrackEnd (s : State) (n : SlotId) (Y : Slot) (spread param exits : Bool) (t : State) : Prop where
  slot : t.slot n = Y
  latched : ∀ k, t.events.latched.getLsbD k = true ↔ s.events.latched.getLsbD k = true ∨
    spread = true ∧ k = 5 * n.val + 3 ∨ param = true ∧ k = 5 * n.val + 4
  summary : summary s.events = true → summary t.events = true
  alerts : AlertsFollow s.events t.events
  captures : ∀ c, t.capture c = if exits = true then leftTrack n (s.capture c) else s.capture c
  frame : t = { s with
    slots := s.slots.set n Y, events := t.events, capture0 := t.capture0, capture1 := t.capture1 }

theorem TrackEnd.start (s : State) (n : SlotId) : TrackEnd s n (s.slot n) false false false s where
  slot := rfl
  latched := by simp
  summary := id
  alerts := .refl _
  captures := by simp
  frame := by simp [State.slot]

section

variable {s t : State} {n : SlotId} {Y : Slot} {spread param exits : Bool}

theorem TrackEnd.setSlot (before : TrackEnd s n Y spread param exits t) (Z : Slot) :
    TrackEnd s n Z spread param exits (t.setSlot n Z) where
  slot := State.slot_setSlot_same t n Z
  latched := before.latched
  summary := before.summary
  alerts := before.alerts
  captures := by
    intro c
    rw [State.capture_setSlot]
    exact before.captures c
  frame := by
    have frame := before.frame
    generalize t.events = events, t.capture0 = capture0, t.capture1 = capture1 at frame
    subst frame
    simp [State.setSlot]

/-- A latch under a condition adds its flag. -/
theorem getLsbD_latchIf (s : State) (b : Bool) (f : EventFlag) (k : Nat) :
    (s.latchIf b f).events.latched.getLsbD k = true ↔
      s.events.latched.getLsbD k = true ∨ b = true ∧ k = flagNumber f := by
  cases b
  · simp [State.latchIf]
  · simp [State.latchIf, State.latch, getLsbD_latchEvent]

theorem summary_latchIf (s : State) (b : Bool) (f : EventFlag) (up : summary s.events = true) :
    summary (s.latchIf b f).events = true := by
  cases b
  · exact up
  · exact summary_latchEvent f _ up

theorem AlertsFollow.latchIf (s : State) (b : Bool) (f : EventFlag) :
    AlertsFollow s.events (s.latchIf b f).events := by
  cases b
  · exact .refl _
  · exact .latch f _

theorem TrackEnd.frame_latchIf (before : TrackEnd s n Y spread param exits t) (b : Bool) (f : EventFlag) :
    t.latchIf b f = { s with
      slots := s.slots.set n Y, events := (t.latchIf b f).events, capture0 := (t.latchIf b f).capture0
      capture1 := (t.latchIf b f).capture1 } := by
  have frame := before.frame
  cases b
  · exact frame
  · generalize t.events = events, t.capture0 = capture0, t.capture1 = capture1 at frame
    subst frame
    rfl

theorem TrackEnd.latchSpread (before : TrackEnd s n Y spread param exits t) (b : Bool) :
    TrackEnd s n Y (spread || b) param exits (t.latchIf b (.echoSpread n)) where
  slot := by rw [State.slot_latchIf, before.slot]
  latched := fun k => by
    rw [getLsbD_latchIf, before.latched, Bool.or_eq_true]
    simp only [flagNumber]
    tauto
  summary := fun up => summary_latchIf t b _ (before.summary up)
  alerts := before.alerts.trans (.latchIf t b _) before.summary (summary_latchIf t b _)
  captures := fun c => by rw [State.capture_latchIf, before.captures]
  frame := before.frame_latchIf b _

theorem TrackEnd.latchParam (before : TrackEnd s n Y spread param exits t) (b : Bool) :
    TrackEnd s n Y spread (param || b) exits (t.latchIf b (.paramChange n)) where
  slot := by rw [State.slot_latchIf, before.slot]
  latched := fun k => by
    rw [getLsbD_latchIf, before.latched, Bool.or_eq_true]
    simp only [flagNumber]
    tauto
  summary := fun up => summary_latchIf t b _ (before.summary up)
  alerts := before.alerts.trans (.latchIf t b _) before.summary (summary_latchIf t b _)
  captures := fun c => by rw [State.capture_latchIf, before.captures]
  frame := before.frame_latchIf b _

theorem TrackEnd.exit (before : TrackEnd s n Y spread param false t) :
    TrackEnd s n Y spread param true (t.endCaptures n) where
  slot := by rw [State.slot_endCaptures, before.slot]
  latched := before.latched
  summary := before.summary
  alerts := before.alerts
  captures := fun c => by
    rw [State.capture_endCaptures, before.captures]
    rfl
  frame := by
    have frame := before.frame
    generalize t.events = events, t.capture0 = capture0, t.capture1 = capture1 at frame
    subst frame
    rfl

/-- A word in TRACK. -/
theorem TrackEnd.word (before : TrackEnd s n Y spread param false t) (r : WordResult) :
    TrackEnd s n (Y.afterWord r) spread (param || Y.paramBy r) (Y.exitsBy r) (t.trackResult n r) := by
  have latched := (before.setSlot (Y.afterWord r)).latchParam (Y.paramBy r)
  rw [State.trackResult_eq, before.slot]
  cases exits : Y.exitsBy r with
  | true => exact latched.exit
  | false => exact latched

/-- A rebuild in TRACK with the MER estimate. -/
theorem TrackEnd.rebuild (before : TrackEnd s n Y spread param exits t) (arrivals : List Arrival) (pp ep : Nat) :
    TrackEnd s n { Y.rebuild arrivals with mer := some (merOf pp ep) } (spread || (Y.rebuild arrivals).windowSpreads)
      param exits (t.rebuildFrame n arrivals pp ep) := by
  rw [State.rebuildFrame, before.slot]
  exact (before.setSlot _).latchSpread _

end

/-! ## The two effects in either order (R82) -/

/-- The word reads the record, the agreement, the pending change and the position, and nothing else. -/
theorem wordEffects_congr {x y : Slot} (record : y.sigRecord = x.sigRecord) (half : y.halfMade = x.halfMade)
    (pending : y.changePending = x.changePending) (position : y.framePos = x.framePos) (r : WordResult) :
    y.exitsBy r = x.exitsBy r ∧ y.paramBy r = x.paramBy r ∧ y.exitTo r = x.exitTo r ∧ y.halfAfter r = x.halfAfter r ∧
      y.announcedBy r = x.announcedBy r := by
  have compatible : y.compatible = x.compatible := by
    funext w
    rw [Slot.compatible, record, Slot.compatible]
  have keeps : y.keepsStructure = x.keepsStructure := by
    funext w
    rw [Slot.keepsStructure, record, Slot.keepsStructure]
  have confirmed : y.confirmedBy r = x.confirmedBy r := by cases r <;> simp [Slot.confirmedBy, compatible, half]
  have announced : y.announcedBy r = x.announcedBy r := by cases r <;> simp [Slot.announcedBy, compatible]
  have agreement : y.halfAfter r = x.halfAfter r := by cases r <;> simp [Slot.halfAfter, compatible]
  have entered : y.exitTo r = x.exitTo r := by
    cases r with
    | good w => rw [Slot.exitTo, confirmed, keeps, Slot.exitTo]
    | _ => rfl
  refine ⟨?_, ?_, entered, agreement, announced⟩
  · rw [Slot.exitsBy, Slot.boundaryBy, confirmed, pending, announced, position, Slot.exitsBy, Slot.boundaryBy]
  · rw [Slot.paramBy, confirmed, announced, pending, Slot.paramBy]

/-- A rebuild reads neither the carrier offset, the frame position, the agreement nor the pending change. -/
theorem Slot.rebuild_beside (x : Slot) (arrivals : List Arrival) (offset : Option Int) (position : BitVec 2)
    (half : Option SigWord) (pending : Bool) :
    ({ x with freqOffset := offset, framePos := position, halfMade := half, changePending := pending } : Slot).rebuild
        arrivals =
      { x.rebuild arrivals with
        freqOffset := offset, framePos := position, halfMade := half, changePending := pending } := by
  have follow : ∀ z : Slot,
      ({ z with freqOffset := offset, framePos := position, halfMade := half, changePending := pending } : Slot).followMain
          arrivals =
        { z.followMain arrivals with
          freqOffset := offset, framePos := position, halfMade := half, changePending := pending } := fun z => by
    unfold Slot.followMain
    cases mainArrival arrivals <;> rfl
  have track : ∀ z : Slot,
      ({ z with freqOffset := offset, framePos := position, halfMade := half, changePending := pending } : Slot).track =
        { z.track with freqOffset := offset, framePos := position, halfMade := half, changePending := pending } :=
    fun z => by
      by_cases moves : ∃ c r, z.top = some c ∧ z.window = some r ∧ z.beats c r = true
      · obtain ⟨c, r, top, window, beats⟩ := moves
        rw [z.track_moves top window beats]
        exact Slot.track_moves _ top window beats
      · rw [z.track_stays moves]
        exact Slot.track_stays _ moves
  show ((({ x.measureEcho arrivals with
    freqOffset := offset, framePos := position, halfMade := half, changePending := pending } : Slot).followMain
      arrivals).track) = _
  rw [follow, track]
  rfl

/-- Whether the frame end's rebuild is made: not when the word is taken first and is an exit. -/
def Slot.rebuildsBy (x : Slot) (r : WordResult) (order : FrameOrder) : Bool := !(x.exitsBy r && order == .wordFirst)

/-- The slot after a frame end in TRACK, from the slot before it with the rebuild made or not. -/
def trackEndSlot (x z : Slot) (r : WordResult) (milliHz : Int) (pp ep : Nat) : Slot :=
  if x.exitsBy r then
    x.exitTo r { z with
      freqOffset := some (storedOffset milliHz), framePos := nextPosition x.framePos r, mer := none
      changePending := false, halfMade := none }
  else
    { z with
      freqOffset := some (storedOffset milliHz), framePos := nextPosition x.framePos r
      mer := some (merOf pp ep), changePending := x.changePending || x.announcedBy r, halfMade := x.halfAfter r }

/-- A rebuild with the carrier offset and the MER estimate, then the word. -/
theorem afterWord_rebuilt (x : Slot) (r : WordResult) (milliHz : Int) (arrivals : List Arrival) (pp ep : Nat) :
    let rebuilt := { (x.followCarrier milliHz).rebuild arrivals with mer := some (merOf pp ep) }
    rebuilt.afterWord r = trackEndSlot x (x.rebuild arrivals) r milliHz pp ep ∧ rebuilt.paramBy r = x.paramBy r ∧
      rebuilt.exitsBy r = x.exitsBy r := by
  intro rebuilt
  have carried : (x.followCarrier milliHz).rebuild arrivals =
      { x.rebuild arrivals with freqOffset := some (storedOffset milliHz), framePos := x.framePos
                                halfMade := x.halfMade, changePending := x.changePending } :=
    x.rebuild_beside arrivals (some (storedOffset milliHz)) x.framePos x.halfMade x.changePending
  have same : rebuilt = { x.rebuild arrivals with
      freqOffset := some (storedOffset milliHz), framePos := x.framePos, halfMade := x.halfMade
      changePending := x.changePending, mer := some (merOf pp ep) } := by
    simp only [rebuilt, carried]
  have record : rebuilt.sigRecord = x.sigRecord := by
    rw [same]
    show (x.rebuild arrivals).sigRecord = x.sigRecord
    rw [x.rebuild_frame arrivals]
  obtain ⟨exits, param, entered, half, announced⟩ := wordEffects_congr (x := x) (y := rebuilt) record
    (by rw [same]) (by rw [same]) (by rw [same]) r
  refine ⟨?_, param, exits⟩
  unfold trackEndSlot
  rw [← exits]
  split
  · next leaves =>
    rw [Slot.afterWord_exits leaves, entered, same]
    rfl
  · next stays =>
    rw [Slot.afterWord_stays stays, half, announced, same]
    rfl

/-- The word taken first: an exit leaves the table and the window, and a word that stays is followed by the rebuild. -/
theorem afterWord_first (x : Slot) (r : WordResult) (milliHz : Int) (arrivals : List Arrival) (pp ep : Nat) :
    let carried := x.followCarrier milliHz
    carried.paramBy r = x.paramBy r ∧ carried.exitsBy r = x.exitsBy r ∧
    (x.exitsBy r = true → carried.afterWord r = trackEndSlot x x r milliHz pp ep) ∧
    (x.exitsBy r = false → (carried.afterWord r).acq = x.acq ∧
      ((carried.afterWord r).rebuild arrivals).windowSpreads = (x.rebuild arrivals).windowSpreads ∧
      { (carried.afterWord r).rebuild arrivals with mer := some (merOf pp ep) } =
        trackEndSlot x (x.rebuild arrivals) r milliHz pp ep) := by
  intro carried
  obtain ⟨exits, param, entered, half, announced⟩ := wordEffects_congr (x := x) (y := carried) rfl rfl rfl rfl r
  refine ⟨param, exits, fun leaves => ?_, fun stays => ?_⟩
  · rw [Slot.afterWord_exits (exits.trans leaves), entered, trackEndSlot, if_pos leaves]
    rfl
  · have goesOn : ¬carried.exitsBy r = true := by simp [exits, stays]
    have after : carried.afterWord r = { x with
        freqOffset := some (storedOffset milliHz), framePos := nextPosition x.framePos r, halfMade := x.halfAfter r
        changePending := x.changePending || x.announcedBy r } := by
      rw [Slot.afterWord_stays goesOn, half, announced]
      rfl
    rw [after, Slot.rebuild_beside, trackEndSlot, if_neg (by simp [stays])]
    exact ⟨rfl, rfl, rfl⟩

/-- Beside the states and the words a frame end leaves the slot with which its table was made. -/
theorem trackEndSlot_frame (x z : Slot) (r : WordResult) (milliHz : Int) (pp ep : Nat) :
    let y := trackEndSlot x z r milliHz pp ep
    y = { z with
      acq := y.acq, phase := y.phase, framePos := nextPosition x.framePos r, freqOffset := some (storedOffset milliHz)
      mer := y.mer, changePending := y.changePending, halfMade := y.halfMade } := by
  dsimp only
  unfold trackEndSlot
  split
  · cases r with
    | good w =>
      rw [Slot.exitTo]
      split <;> rfl
    | _ => rfl
  · rfl

/-- An exit clears the pending change, the agreement and the MER estimate. -/
theorem trackEndSlot_cleared {x z : Slot} {r : WordResult} (leaves : x.exitsBy r = true) (milliHz : Int) (pp ep : Nat) :
    let y := trackEndSlot x z r milliHz pp ep
    y.changePending = false ∧ y.halfMade = none ∧ y.mer = none := by
  dsimp only
  rw [trackEndSlot, if_pos leaves]
  cases r with
  | good w =>
    rw [Slot.exitTo]
    split <;> exact ⟨rfl, rfl, rfl⟩
  | _ => exact ⟨rfl, rfl, rfl⟩

/-- An exit from TRACK does not enter TRACK. -/
theorem trackEndSlot_left {x z : Slot} {r : WordResult} (leaves : x.exitsBy r = true) (milliHz : Int) (pp ep : Nat) :
    (trackEndSlot x z r milliHz pp ep).acq ≠ .track := by
  rw [trackEndSlot, if_pos leaves]
  cases r with
  | good w =>
    rw [Slot.exitTo]
    split <;> exact fun same => by cases same
  | _ => exact fun same => by cases same

/-- A frame end in TRACK, whatever the order. -/
theorem exec_frameEnd_track {s : State} {n : SlotId} (locked : s.power = .locked) (track : (s.slot n).acq = .track)
    (r : WordResult) (milliHz : Int) (arrivals : List Arrival) (pp ep : Nat) (order : FrameOrder) :
    ∃ t, exec (.signallingFrameEnd n r milliHz arrivals pp ep order) s = .next t ∧
      TrackEnd s n
        (trackEndSlot (s.slot n) (if (s.slot n).rebuildsBy r order then (s.slot n).rebuild arrivals else s.slot n) r
          milliHz pp ep)
        ((s.slot n).rebuildsBy r order && ((s.slot n).rebuild arrivals).windowSpreads) ((s.slot n).paramBy r)
        ((s.slot n).exitsBy r) t := by
  have due : (s.slot n).acq.demodulates = true := by rw [track]; rfl
  have still : ((s.slot n).followCarrier milliHz).acq = .track := track
  have ran : exec (.signallingFrameEnd n r milliHz arrivals pp ep order) s =
      .next ((s.setSlot n ((s.slot n).followCarrier milliHz)).trackFrame n r arrivals pp ep order) := by
    refine congrArg Host.Outcome.next ((State.whenDue_of_due s _ _ locked due).trans ?_)
    rw [State.frameEnd, still]
  refine ⟨_, ran, ?_⟩
  have carried := (TrackEnd.start s n).setSlot ((s.slot n).followCarrier milliHz)
  by_cases first : order = .wordFirst
  · subst first
    have worded := carried.word r
    obtain ⟨param, exits, left, stayed⟩ := afterWord_first (s.slot n) r milliHz arrivals pp ep
    rw [param, exits, Bool.false_or] at worded
    rw [State.trackFrame, State.ifTracking, worded.slot]
    cases leaves : (s.slot n).exitsBy r with
    | true =>
      have notBuilt : (s.slot n).rebuildsBy r .wordFirst = false := by simp [Slot.rebuildsBy, leaves]
      rw [leaves, left leaves] at worded
      rw [left leaves, if_neg (trackEndSlot_left leaves milliHz pp ep), notBuilt]
      exact worded
    | false =>
      have built : (s.slot n).rebuildsBy r .wordFirst = true := by simp [Slot.rebuildsBy, leaves]
      obtain ⟨acq, spreads, slot⟩ := stayed leaves
      have rebuilt := worded.rebuild arrivals pp ep
      rw [leaves, spreads, slot, Bool.false_or] at rebuilt
      rw [acq, if_pos track, built, Bool.true_and, if_pos rfl]
      exact rebuilt
  · have built : (s.slot n).rebuildsBy r order = true := by simp [Slot.rebuildsBy, first]
    have rebuilt := (carried.rebuild arrivals pp ep).word r
    obtain ⟨slot, param, exits⟩ := afterWord_rebuilt (s.slot n) r milliHz arrivals pp ep
    have spreads : (((s.slot n).followCarrier milliHz).rebuild arrivals).windowSpreads =
        ((s.slot n).rebuild arrivals).windowSpreads := by
      have beside := (s.slot n).rebuild_beside arrivals (some (storedOffset milliHz)) (s.slot n).framePos
        (s.slot n).halfMade (s.slot n).changePending
      exact (congrArg Slot.windowSpreads beside).trans rfl
    rw [slot, param, exits, spreads, Bool.false_or, Bool.false_or] at rebuilt
    rw [built, Bool.true_and, if_pos rfl]
    cases order with
    | wordFirst => exact absurd rfl first
    | _ => exact rebuilt

/-! ## The obligation -/

/-- What a rebuild does not touch. -/
theorem Slot.rebuild_kept (x : Slot) (arrivals : List Arrival) :
    (x.rebuild arrivals).sigRecord = x.sigRecord ∧ (x.rebuild arrivals).active = x.active ∧
      (x.rebuild arrivals).detected = x.detected ∧ (x.rebuild arrivals).counters = x.counters ∧
      (x.rebuild arrivals).programmed = x.programmed ∧ (x.rebuild arrivals).acq = x.acq := by
  have frame := x.rebuild_frame arrivals
  dsimp only at frame
  rw [frame]
  exact ⟨rfl, rfl, rfl, rfl, rfl, rfl⟩

/-- What the words of the statement say of the model's tests. -/
theorem Slot.compatible_iff {x : Slot} {r : SigWord} (record : x.sigRecord = some r) (w : SigWord) :
    x.compatible w = true ↔ w = { r with frameIndex := w.frameIndex, announced := w.announced } := by
  rw [Slot.compatible, record]
  exact beq_iff_eq.trans eq_comm

theorem Slot.windowSpreads_iff (x : Slot) :
    x.windowSpreads = true ↔
      ∃ w, x.window = some w ∧ capturedEnergy x.tuning.captureThreshold x.span x.echo w < x.total := by
  unfold Slot.windowSpreads Slot.spreads Slot.captured
  cases x.window <;> simp

/-- Settles O21: the frame end by its one outcome for every order, then each claim by whether it is an exit. -/
theorem parameterChangesLeaveTrack : Obligations.ParameterChangesLeaveTrack := by
  intro n word r milliHz arrivals pp ep order s locked track record x compatible announces confirms position boundary
  let result : WordResult := (word.map WordResult.good).getD .bad
  obtain ⟨t, ran, ended⟩ := exec_frameEnd_track locked track result milliHz arrivals pp ep order
  have compatible_iff : ∀ w, x.compatible w = true ↔ compatible w := Slot.compatible_iff record
  have position_eq : nextPosition x.framePos result = position := by cases word <;> rfl
  have announces_iff : x.announcedBy result = true ↔ announces := by
    cases word with
    | none => simp [result, Slot.announcedBy, announces]
    | some w => simp [result, Slot.announcedBy, announces, compatible_iff]
  have confirms_iff : x.confirmedBy result = true ↔ confirms := by
    cases word with
    | none => simp [result, Slot.confirmedBy, confirms]
    | some w =>
      show (!x.compatible w && followsWord x.halfMade w) = true ↔ _
      rw [Bool.and_eq_true, Bool.not_eq_true', ← Bool.not_eq_true, compatible_iff, followsWord_iff]
      constructor
      · rintro ⟨incompatible, v, half, follows⟩
        exact ⟨w, v, rfl, incompatible, half, follows⟩
      · rintro ⟨_, v, same, incompatible, half, follows⟩
        cases same
        exact ⟨incompatible, v, half, follows⟩
  have boundary_iff : x.boundaryBy result = true ↔ boundary := by
    rw [Slot.boundaryBy, Bool.and_eq_true, Bool.or_eq_true, announces_iff, beq_iff_eq, position_eq]
  have exits_iff : x.exitsBy result = true ↔ confirms ∨ boundary := by
    rw [Slot.exitsBy, Bool.or_eq_true, confirms_iff, boundary_iff]
  have rebuilds_iff : x.rebuildsBy result order = true ↔ ¬((confirms ∨ boundary) ∧ order = .wordFirst) := by
    rw [Slot.rebuildsBy, Bool.not_eq_true', ← Bool.not_eq_true, Bool.and_eq_true, beq_iff_eq, exits_iff]
  let z : Slot := if x.rebuildsBy result order then x.rebuild arrivals else x
  have slot : t.slot n = trackEndSlot x z result milliHz pp ep := ended.slot
  have kept : z.sigRecord = x.sigRecord ∧ z.active = x.active ∧ z.detected = x.detected ∧ z.counters = x.counters ∧
      z.programmed = x.programmed ∧ z.acq = x.acq := by
    simp only [z]
    split
    · exact x.rebuild_kept arrivals
    · exact ⟨rfl, rfl, rfl, rfl, rfl, rfl⟩
  obtain ⟨keptRecord, keptActive, keptDetected, keptCounters, keptProgrammed, keptAcq⟩ := kept
  have frame := trackEndSlot_frame x z result milliHz pp ep
  have left (exits : confirms ∨ boundary) : x.exitsBy result = true := exits_iff.mpr exits
  refine ⟨t, ran, ⟨?position, ?offset, ?record, ?active, ?detected, ?counters, ?programmed,
    fun unconfirmed inside => ?stays, fun unconfirmed atBoundary => ?boundary, fun w is confirmed same => ?sameStructure,
    fun w is confirmed other => ?otherStructure, fun exits => ?cleared, fun exits first => ?tablesBefore,
    fun rebuilds => ?tablesRebuilt⟩, ?param, ?spread, fun k notSpread notParam => ?others, ended.alerts, ?frame⟩
  case position =>
    rw [slot, frame]
    exact position_eq
  case offset => rw [slot, frame]
  case record =>
    rw [slot, frame]
    exact keptRecord.trans record
  case active =>
    rw [slot, frame]
    exact keptActive
  case detected =>
    rw [slot, frame]
    exact keptDetected
  case counters =>
    rw [slot, frame]
    exact keptCounters
  case programmed =>
    rw [slot, frame]
    exact keptProgrammed
  case stays =>
    have stays : ¬x.exitsBy result = true := mt exits_iff.mp fun exits => exits.elim unconfirmed inside
    have inTrack : (x.exitsBy result) = false := Bool.eq_false_iff.mpr stays
    rw [slot, trackEndSlot, if_neg stays]
    refine ⟨keptAcq.trans track, ?_, rfl, fun w is incompatible => ?_, fun allCompatible => ?_, fun c => ?_⟩
    · show (x.changePending || x.announcedBy result) = true ↔ _
      rw [Bool.or_eq_true, announces_iff]
    · subst is
      exact if_neg (mt (compatible_iff w).mp incompatible)
    · cases word with
      | none => rfl
      | some w => exact if_pos ((compatible_iff w).mpr (allCompatible w rfl))
    · have captures := ended.captures c
      rwa [show (s.slot n).exitsBy result = false from inTrack, if_neg Bool.false_ne_true] at captures
  case boundary =>
    have unchanged : x.confirmedBy result = false := Bool.eq_false_iff.mpr (mt confirms_iff.mp unconfirmed)
    rw [slot, trackEndSlot, if_pos (left (.inr atBoundary)), Slot.exitTo_unconfirmed unchanged]
    exact ⟨rfl, rfl⟩
  case sameStructure =>
    have leaves := left (.inl confirmed)
    subst is
    have keeps : x.keepsStructure w = true := by
      rw [Slot.keepsStructure, show x.sigRecord = some r from record]
      exact (sameStructure_iff r w).mpr ⟨same.1.symm, same.2.symm⟩
    have entered : x.exitTo (.good w) = Slot.enterSignal := by simp [Slot.exitTo, keeps]
    rw [slot, trackEndSlot, if_pos leaves]
    show (x.exitTo (.good w) _).acq = _ ∧ (x.exitTo (.good w) _).phase = _
    rw [entered]
    exact ⟨rfl, rfl⟩
  case otherStructure =>
    have leaves := left (.inl confirmed)
    have changes := confirms_iff.mpr confirmed
    subst is
    have differs : x.keepsStructure w = false := by
      rw [Slot.keepsStructure, show x.sigRecord = some r from record, ← Bool.not_eq_true]
      exact fun keeps => other ⟨((sameStructure_iff r w).mp keeps).1.symm, ((sameStructure_iff r w).mp keeps).2.symm⟩
    have entered : x.exitTo (.good w) = Slot.enterSync := by
      rw [Slot.exitTo, show x.confirmedBy (.good w) = true from changes, differs]
      rfl
    rw [slot, trackEndSlot, if_pos leaves]
    show (x.exitTo (.good w) _).acq = _ ∧ (x.exitTo (.good w) _).phase = _
    rw [entered]
    exact ⟨rfl, rfl⟩
  case cleared =>
    obtain ⟨pending, half, mer⟩ := trackEndSlot_cleared (z := z) (left exits) milliHz pp ep
    rw [slot]
    refine ⟨pending, half, mer, fun c => ?_⟩
    have captures := ended.captures c
    rwa [show (s.slot n).exitsBy result = true from left exits, if_pos rfl] at captures
  case tablesBefore =>
    have before : z = x := if_neg fun rebuilds => rebuilds_iff.mp rebuilds ⟨exits, first⟩
    rw [slot, frame, before]
    exact ⟨rfl, rfl, rfl, rfl⟩
  case tablesRebuilt =>
    have rebuilt : z = x.rebuild arrivals := if_pos (rebuilds_iff.mpr rebuilds)
    rw [slot, frame, rebuilt]
    exact ⟨rfl, rfl, rfl, rfl⟩
  case param =>
    rw [ended.latched]
    have bit : ¬5 * n.val + 4 = 5 * n.val + 3 := by omega
    have param : (s.slot n).paramBy result = true ↔ confirms ∨ announces ∧ x.changePending = false := by
      show x.paramBy result = true ↔ _
      rw [Slot.paramBy, Bool.or_eq_true, Bool.and_eq_true, Bool.not_eq_true', confirms_iff, announces_iff]
    rw [param]
    simp only [bit, and_false, and_true, false_or]
  case spread =>
    have bit : ¬5 * n.val + 3 = 5 * n.val + 4 := by omega
    obtain ⟨-, active, detected, -, -, -⟩ := x.rebuild_kept arrivals
    have spreads : (x.rebuild arrivals).windowSpreads = true ↔ ∃ w, (x.rebuild arrivals).window = some w ∧
        capturedEnergy x.tuning.captureThreshold x.span (x.rebuild arrivals).echo w < (x.rebuild arrivals).total := by
      rw [Slot.windowSpreads_iff, Slot.tuning, active, Slot.span, detected]
      rfl
    show t.events.latched.getLsbD (5 * n.val + 3) = true ↔ _
    rw [ended.latched, Bool.and_eq_true, show (s.slot n).rebuildsBy result order = true ↔ _ from rebuilds_iff, spreads]
    simp only [bit, and_false, and_true, or_false]
  case others =>
    rw [Bool.eq_iff_iff, ended.latched]
    simp only [notSpread, notParam, and_false, or_false]
  case frame =>
    rw [ended.slot]
    exact ended.frame

end Sys2Proof.Machine
end

section
/-! SUPPORT. The echo table of a measurement (R63 to R65): the main path, the other resolved paths as the table lists
them, and the competition for the last places. -/

namespace Sys2Proof.Machine

open Sys2Proof

/-! ## The main path (R65) -/

theorem strongest_none {l : List Arrival} : strongest l = none ↔ l = [] := by
  cases l with
  | nil => simp [strongest]
  | cons a l =>
    rw [strongest]
    split
    · simp
    · split <;> simp

/-- Of equally strong paths the main path is the earliest. -/
theorem strongest_earliest {l : List Arrival} {m : Arrival} (found : strongest l = some m)
    (ascending : l.Pairwise fun p q => p.position < q.position) :
    ∀ q ∈ l, q.power = m.power → m.position ≤ q.position := by
  induction l generalizing m with
  | nil => simp
  | cons a l ih =>
    obtain ⟨first, rest⟩ := List.pairwise_cons.mp ascending
    intro q member strong
    rw [strongest] at found
    split at found
    · next none =>
      cases Option.some.inj found
      rw [strongest_none] at none
      subst none
      rw [List.mem_singleton] at member
      rw [member]
    · next b tail =>
      obtain ⟨inTail, _⟩ := strongest_spec l b tail
      split at found
      · cases Option.some.inj found
        rcases List.mem_cons.mp member with rfl | later
        · exact le_rfl
        · exact (first q later).le
      · next weaker =>
        cases Option.some.inj found
        rcases List.mem_cons.mp member with rfl | later
        · omega
        · exact ih tail rest q later strong

theorem mainArrival_none {arrivals : List Arrival} : mainArrival arrivals = none ↔ ∀ a ∈ arrivals, a.power = 0 := by
  have noPower : mainArrival arrivals = none ↔ ∀ q, powerAt arrivals q = 0 := by
    rw [mainArrival, strongest_none, List.eq_nil_iff_forall_not_mem]
    constructor
    · intro nothing q
      by_contra power
      exact nothing ⟨q, powerAt arrivals q⟩ ((mem_resolvedPaths arrivals _).mpr ⟨Nat.pos_of_ne_zero power, rfl⟩)
    · intro zero a member
      obtain ⟨positive, combined⟩ := (mem_resolvedPaths arrivals a).mp member
      rw [combined, zero] at positive
      exact lt_irrefl 0 positive
  rw [noPower]
  constructor
  · intro zero a member
    have inSum := List.single_le_sum (l := arrivals.map fun b => if b.position = a.position then b.power else 0)
      (fun _ _ => Nat.zero_le _) a.power (List.mem_map.mpr ⟨a, member, if_pos rfl⟩)
    have sum := zero a.position
    rw [powerAt] at sum
    omega
  · intro zero q
    refine List.sum_eq_zero fun x member => ?_
    obtain ⟨a, inList, rfl⟩ := List.mem_map.mp member
    rw [zero a inList, ite_self]

theorem mainArrival_spec {arrivals : List Arrival} {main : Arrival} (found : mainArrival arrivals = some main) :
    0 < main.power ∧ powerAt arrivals main.position = main.power ∧
      ∀ q, powerAt arrivals q ≤ main.power ∧ (powerAt arrivals q = main.power → main.position ≤ q) := by
  obtain ⟨member, strongestOf⟩ := strongest_spec _ _ found
  obtain ⟨positive, combined⟩ := (mem_resolvedPaths arrivals main).mp member
  refine ⟨positive, combined.symm, fun q => ?_⟩
  have resolved (power : 0 < powerAt arrivals q) : (⟨q, powerAt arrivals q⟩ : Arrival) ∈ resolvedPaths arrivals :=
    (mem_resolvedPaths arrivals _).mpr ⟨power, rfl⟩
  refine ⟨?_, fun equal => ?_⟩
  · rcases Nat.eq_zero_or_pos (powerAt arrivals q) with zero | power
    · omega
    · exact strongestOf _ (resolved power)
  · exact strongest_earliest found (resolvedPaths_spec arrivals).1 _ (resolved (equal ▸ positive)) equal

/-! ## The other paths (R64, R65) -/

/-- The listed power of a position beside the main path. -/
def listedPower (arrivals : List Arrival) (main : Arrival) (q : Int) : Nat :=
  min ((512 * powerAt arrivals q + main.power) / (2 * main.power)) (if q < main.position then 255 else 256)

/-- A position that competes for a place beside the main path. -/
def Competes (d : Option Structure) (arrivals : List Arrival) (main : Arrival) (q : Int) : Prop :=
  q ≠ main.position ∧ 2 ≤ listedPower arrivals main q ∧ delayMin d ≤ q - main.position ∧ q - main.position ≤ delayMax d

/-- The path of a position as the table lists it. -/
def listedPath (arrivals : List Arrival) (main : Arrival) (q : Int) : EchoPath :=
  ⟨q - main.position, listedPower arrivals main q⟩

/-- The paths that compete for the places beside the main path. -/
def competitors (d : Option Structure) (main : Arrival) (arrivals : List Arrival) : List EchoPath :=
  ((resolvedPaths arrivals).map (echoPathOf main)).filter (listable d)

section

variable {d : Option Structure} {arrivals : List Arrival} {main : Arrival}

theorem listedPower_of_silent (positive : 0 < main.power) {q : Int} (silent : powerAt arrivals q = 0) :
    listedPower arrivals main q = 0 := by
  rw [listedPower, silent, Nat.mul_zero, Nat.zero_add, Nat.div_eq_of_lt (by omega), Nat.zero_min]

theorem echoPathOf_resolved {a : Arrival} (member : a ∈ resolvedPaths arrivals) :
    echoPathOf main a = listedPath arrivals main a.position := by
  obtain ⟨-, combined⟩ := (mem_resolvedPaths arrivals a).mp member
  rw [echoPathOf, relativePower, listedPath, listedPower, ← combined]

theorem listable_listedPath (q : Int) :
    listable d (listedPath arrivals main q) = true ↔ Competes d arrivals main q := by
  rw [listable, decide_eq_true_iff, Competes, listedPath]
  have apart : q - main.position ≠ 0 ↔ q ≠ main.position := by omega
  dsimp only
  tauto

theorem mem_competitors (positive : 0 < main.power) (p : EchoPath) :
    p ∈ competitors d main arrivals ↔ ∃ q, Competes d arrivals main q ∧ p = listedPath arrivals main q := by
  rw [competitors, List.mem_filter, List.mem_map]
  constructor
  · rintro ⟨⟨a, member, rfl⟩, listed⟩
    rw [echoPathOf_resolved member] at listed ⊢
    exact ⟨a.position, (listable_listedPath _).mp listed, rfl⟩
  · rintro ⟨q, competes, rfl⟩
    have power : 0 < powerAt arrivals q := by
      refine Nat.pos_of_ne_zero fun silent => ?_
      have strong := competes.2.1
      rw [listedPower_of_silent positive silent] at strong
      omega
    have member : (⟨q, powerAt arrivals q⟩ : Arrival) ∈ resolvedPaths arrivals :=
      (mem_resolvedPaths arrivals _).mpr ⟨power, rfl⟩
    exact ⟨⟨_, member, echoPathOf_resolved member⟩, (listable_listedPath _).mpr competes⟩

theorem competitors_delays : (competitors d main arrivals).Pairwise fun p q => p.delay ≠ q.delay := by
  refine List.Pairwise.filter _ (List.pairwise_map.mpr ?_)
  refine (resolvedPaths_spec arrivals).1.imp fun {a b} earlier => ?_
  show a.position - main.position ≠ b.position - main.position
  omega

theorem strongerPath_iff (p q : EchoPath) :
    strongerPath p q = true ↔ q.power < p.power ∨ q.power = p.power ∧ p.delay < q.delay := by
  rw [strongerPath, decide_eq_true_iff]

theorem strongerPath_trans (p q r : EchoPath) (first : strongerPath p q = true) (second : strongerPath q r = true) :
    strongerPath p r = true := by
  rw [strongerPath_iff] at *
  omega

theorem strongerPath_irrefl (p : EchoPath) : strongerPath p p = false := by
  rw [← Bool.not_eq_true, strongerPath_iff]
  omega

/-- A path is among the seven listed ones when fewer than seven competitors precede it. -/
theorem mem_otherPaths (p : EchoPath) :
    p ∈ otherPaths d main arrivals ↔ p ∈ competitors d main arrivals ∧
      (competitors d main arrivals).countP (fun r => strongerPath r p) < 7 := by
  have total : (competitors d main arrivals).Pairwise fun p q => strongerPath p q = true ∨ strongerPath q p = true :=
    competitors_delays.imp fun {p q} apart => by
      rw [strongerPath_iff, strongerPath_iff]
      omega
  have sorted := sortBy_sorted strongerPath strongerPath_trans _ total
  have perm := sortBy_perm strongerPath (competitors d main arrivals)
  have taken := mem_take_sorted strongerPath strongerPath_irrefl strongerPath_trans _ sorted 7 p
  rw [perm.mem_iff, perm.countP_eq] at taken
  exact taken

/-- Fewer than seven competitors precede a path when no seven positions do. -/
theorem countP_competitors (positive : 0 < main.power) (p : EchoPath) :
    (competitors d main arrivals).countP (fun r => strongerPath r p) < 7 ↔
      ∀ rs : List Int, rs.Nodup →
        (∀ r ∈ rs, Competes d arrivals main r ∧ strongerPath (listedPath arrivals main r) p = true) → rs.length < 7 := by
  rw [List.countP_eq_length_filter]
  constructor
  · intro few rs nodup all
    refine lt_of_le_of_lt ?_ few
    have distinct : (rs.map (listedPath arrivals main)).Nodup := nodup.map fun q r same => by
      have delays := congrArg EchoPath.delay same
      simp only [listedPath] at delays
      omega
    have within : rs.map (listedPath arrivals main) ⊆
        (competitors d main arrivals).filter fun r => strongerPath r p := fun path member => by
      obtain ⟨q, inList, rfl⟩ := List.mem_map.mp member
      obtain ⟨competes, stronger⟩ := all q inList
      exact List.mem_filter.mpr ⟨(mem_competitors positive _).mpr ⟨q, competes, rfl⟩, stronger⟩
    have bound := (distinct.subperm within).length_le
    rwa [List.length_map] at bound
  · intro all
    have few := all (((competitors d main arrivals).filter fun r => strongerPath r p).map
      fun path => path.delay + main.position) ?_ ?_
    · rwa [List.length_map] at few
    · refine List.pairwise_map.mpr ((competitors_delays.filter _).imp fun {a b} apart => ?_)
      omega
    · intro r member
      obtain ⟨path, inList, rfl⟩ := List.mem_map.mp member
      obtain ⟨competitor, stronger⟩ := List.mem_filter.mp inList
      obtain ⟨q, competes, rfl⟩ := (mem_competitors positive path).mp competitor
      have position : (listedPath arrivals main q).delay + main.position = q := by
        simp only [listedPath]
        omega
      rw [position]
      exact ⟨competes, stronger⟩

/-! ## The table (R63, R65) -/

theorem echoTable_eq (found : mainArrival arrivals = some main) :
    echoTable d arrivals = sortBy earlierPath (⟨0, 256⟩ :: otherPaths d main arrivals) := by
  rw [echoTable, found]

theorem mem_echoTable (found : mainArrival arrivals = some main) (p : EchoPath) :
    p ∈ echoTable d arrivals ↔ p = ⟨0, 256⟩ ∨ p ∈ otherPaths d main arrivals := by
  rw [echoTable_eq found, (sortBy_perm _ _).mem_iff, List.mem_cons]

theorem otherPaths_sublist :
    (otherPaths d main arrivals).Sublist (sortBy strongerPath (competitors d main arrivals)) :=
  List.take_sublist _ _

theorem competitor_spec {p : EchoPath} (member : p ∈ otherPaths d main arrivals) :
    p.delay ≠ 0 ∧ delayMin d ≤ p.delay ∧ p.delay ≤ delayMax d ∧ 2 ≤ p.power ∧ p.power ≤ 256 ∧
      (p.delay < 0 → p.power < 256) := by
  have competitor : p ∈ competitors d main arrivals := ((mem_otherPaths p).mp member).1
  obtain ⟨mapped, listed⟩ := List.mem_filter.mp competitor
  obtain ⟨a, -, rfl⟩ := List.mem_map.mp mapped
  rw [listable, decide_eq_true_iff] at listed
  obtain ⟨apart, low, high, strong⟩ := listed
  refine ⟨apart, low, high, strong, ?_, fun before => ?_⟩
  · show min _ _ ≤ 256
    split <;> omega
  · have earlier : a.position < main.position := by
      simp only [echoPathOf] at before
      omega
    show min _ (if a.position < main.position then 255 else 256) < 256
    rw [if_pos earlier]
    omega

theorem echoTable_delays (found : mainArrival arrivals = some main) :
    (echoTable d arrivals).Pairwise fun p q => p.delay < q.delay := by
  rw [echoTable_eq found]
  refine sortBy_earlierPath _ (List.pairwise_cons.mpr ⟨fun p member => ?_, ?_⟩)
  · exact (competitor_spec member).1.symm
  · have sorted : (sortBy strongerPath (competitors d main arrivals)).Pairwise fun p q => p.delay ≠ q.delay :=
      (sortBy_perm _ _).symm.pairwise competitors_delays fun {p q} apart => apart.symm
    exact sorted.sublist otherPaths_sublist

theorem length_echoTable (found : mainArrival arrivals = some main) : (echoTable d arrivals).length ≤ 8 := by
  rw [echoTable_eq found, (sortBy_perm _ _).length_eq, List.length_cons]
  have places : (otherPaths d main arrivals).length ≤ 7 := List.length_take_le _ _
  omega

end

/-- The delay range of a mode. -/
theorem delayRange (d : Structure) :
    (d.mode = .l → delayMin (some d) = -4096 ∧ delayMax (some d) = 4095) ∧
    (d.mode = .s → delayMin (some d) = -1024 ∧ delayMax (some d) = 1023) := by
  obtain ⟨mode, guard⟩ := d
  cases mode with
  | s => exact ⟨nofun, fun _ => ⟨rfl, rfl⟩⟩
  | l => exact ⟨fun _ => ⟨rfl, rfl⟩, nofun⟩

/-- Settles O22: with no main path the table is empty; with one it is the main path and the listed competitors. -/
theorem echoTablesAreWellFormed : Obligations.EchoTablesAreWellFormed := by
  refine ⟨fun d arrivals => ?table, fun g arrivals => rfl⟩
  intro table
  obtain ⟨rangeL, rangeS⟩ := delayRange d
  cases found : mainArrival arrivals with
  | none =>
    have empty : table = [] := by
      simp only [table, echoTable, found]
    rw [empty]
    exact ⟨Nat.zero_le _, List.Pairwise.nil, fun no => absurd rfl no, nofun, iff_of_true rfl rfl, nofun⟩
  | some main =>
    obtain ⟨positive, -, -⟩ := mainArrival_spec found
    have mainListed : (⟨0, 256⟩ : EchoPath) ∈ table := (mem_echoTable found _).mpr (.inl rfl)
    refine ⟨length_echoTable found, echoTable_delays found, fun _ => mainListed, fun p member => ?paths,
      by simp [List.ne_nil_of_mem mainListed], ?members⟩
    case paths =>
      rcases (mem_echoTable found p).mp member with rfl | other
      · exact ⟨by decide, by decide, fun no => absurd no (by decide), fun _ => by decide, fun _ => by decide⟩
      · obtain ⟨-, low, high, strong, bounded, before⟩ := competitor_spec other
        refine ⟨strong, bounded, before, fun l => ?_, fun s => ?_⟩
        · obtain ⟨least, greatest⟩ := rangeL l
          omega
        · obtain ⟨least, greatest⟩ := rangeS s
          omega
    case members =>
      intro main' same power listed inRange competes precedes p
      cases Option.some.inj same
      have range : ∀ q, inRange q ↔ delayMin (some d) ≤ q - main.position ∧ q - main.position ≤ delayMax (some d) :=
        fun q => by
          simp only [inRange]
          cases mode : d.mode with
          | s =>
            obtain ⟨least, greatest⟩ := rangeS mode
            rw [least, greatest]
          | l =>
            obtain ⟨least, greatest⟩ := rangeL mode
            rw [least, greatest]
      have competing : ∀ q, competes q ↔ Competes (some d) arrivals main q := fun q => by
        simp only [competes, Competes, range]
        rfl
      have preceding : ∀ r q, precedes r q ↔
          strongerPath (listedPath arrivals main r) (listedPath arrivals main q) = true := fun r q => by
        rw [strongerPath_iff]
        simp only [precedes, listedPath]
        have delays : r - main.position < q - main.position ↔ r < q := by omega
        rw [delays, eq_comm (a := listed r)]
        rfl
      rw [mem_echoTable found, mem_otherPaths, mem_competitors positive]
      refine or_congr_right ?_
      constructor
      · rintro ⟨⟨q, candidate, rfl⟩, few⟩
        refine ⟨q, (competing q).mpr candidate, rfl, fun rs nodup all => ?_⟩
        refine (countP_competitors positive _).mp few rs nodup fun r member => ?_
        obtain ⟨competitor, before⟩ := all r member
        exact ⟨(competing r).mp competitor, (preceding r q).mp before⟩
      · rintro ⟨q, candidate, rfl, few⟩
        refine ⟨⟨q, (competing q).mp candidate, rfl⟩, (countP_competitors positive _).mpr fun rs nodup all => ?_⟩
        refine few rs nodup fun r member => ?_
        obtain ⟨competitor, before⟩ := all r member
        exact ⟨(competing r).mpr competitor, (preceding r q).mpr before⟩

end Sys2Proof.Machine
end

section
/-! SUPPORT. The ranking, the candidate trials, the rebuild in TRACK and what a frame end measures (R66 to R82, R93,
R94). -/

namespace Sys2Proof.Machine

open Sys2Proof

/-! ## The ranking (R69 to R71) -/

theorem rankedBefore_iff (a b : Candidate) :
    rankedBefore a b = true ↔ b.energy < a.energy ∨ b.energy = a.energy ∧ a.reference < b.reference := by
  rw [rankedBefore, decide_eq_true_iff]

theorem rankedBefore_trans (a b c : Candidate) (first : rankedBefore a b = true) (second : rankedBefore b c = true) :
    rankedBefore a c = true := by
  rw [rankedBefore_iff] at *
  omega

theorem mem_ranking {threshold : Nat} {span : Int} {table : List EchoPath} {c : Candidate} :
    c ∈ ranking threshold span table ↔ ∃ p ∈ table, threshold ≤ p.power ∧
      c = ⟨p.delay, capturedEnergy threshold span table p.delay, .notTried, 0⟩ := by
  rw [ranking, (sortBy_perm _ _).mem_iff, List.mem_map]
  simp only [mem_eligiblePaths, candidateOf, and_assoc, eq_comm]

theorem ranking_sorted {threshold : Nat} {span : Int} {table : List EchoPath}
    (ascending : table.Pairwise fun p q => p.delay < q.delay) :
    (ranking threshold span table).Pairwise fun a b =>
      b.energy < a.energy ∨ b.energy = a.energy ∧ a.reference < b.reference := by
  have total : ((eligiblePaths threshold table).map (candidateOf threshold span table)).Pairwise
      fun a b => rankedBefore a b = true ∨ rankedBefore b a = true := by
    refine List.pairwise_map.mpr ((ascending.filter _).imp fun {p q} earlier => ?_)
    simp only [rankedBefore_iff, candidateOf]
    omega
  exact (sortBy_sorted rankedBefore rankedBefore_trans _ total).imp fun {a b} => (rankedBefore_iff a b).mp

theorem length_ranking (threshold : Nat) (span : Int) (table : List EchoPath) :
    (ranking threshold span table).length = (table.filter fun p => decide (threshold ≤ p.power)).length := by
  rw [ranking, (sortBy_perm _ _).length_eq, List.length_map, eligiblePaths]

theorem notTried_of_mem_ranking {threshold : Nat} {span : Int} {table : List EchoPath} {c : Candidate}
    (member : c ∈ ranking threshold span table) : c.trial = .notTried := by
  obtain ⟨p, -, -, rfl⟩ := mem_ranking.mp member
  rfl

/-! ## The build in WINDOW (R66, R72, R73) -/

/-- A measurement without a path gives an empty table. -/
theorem echoTable_of_silent {arrivals : List Arrival} (silent : ∀ a ∈ arrivals, a.power = 0) (d : Option Structure) :
    echoTable d arrivals = [] := by
  rw [echoTable, mainArrival_none.mpr silent]

theorem ms_eq (n : Nat) : ms n = n * 27000 := rfl

/-- A slot whose attempt fails with WINDOW_FAIL. -/
theorem State.failAttempt_window (s : State) (n : SlotId) :
    s.failAttempt n .windowFail = (s.setSlot n (windowFailed (s.slot n))).latch (.acqFailed n) := by
  rw [State.failAttempt, Slot.fail_window]

/-- Settles O24: the ranking from the sort, the build by whether its list has an entry. -/
theorem buildBeginsTheTrials : Obligations.BuildBeginsTheTrials := by
  refine ⟨fun threshold span table ascending => ⟨ranking_sorted ascending, length_ranking threshold span table,
    fun c => mem_ranking⟩, ⟨rfl, rfl, fun x d detected => ?span⟩, fun n arrivals s locked window idle => ?build⟩
  case span =>
    rw [Slot.span, detected]
    rfl
  case build =>
    intro x table list
    have due : ((s.slot n).acq == .window && (s.slot n).trialTimer == none) = true := by simp [window, idle]
    have ran : exec (.echoTableBuild n arrivals) s = .next (s.echoBuild n arrivals) :=
      congrArg Host.Outcome.next (State.whenDue_of_due s _ _ locked due)
    refine ⟨fun top rest entries => ?begins, fun silent => ?fails⟩
    case begins =>
      have inRanking : top ∈ ranking x.tuning.captureThreshold x.span table :=
        List.mem_of_mem_take (entries ▸ List.mem_cons_self .. : top ∈ list)
      have begun : beginTrial list = { top with trial := .settling, errors := 0 } :: rest := by
        rw [entries, beginTrial, if_pos (notTried_of_mem_ranking inRanking)]
      have built : x.build arrivals = { x with
          echo := table
          total := totalEnergy x.tuning.captureThreshold table
          candidates := { top with trial := .settling, errors := 0 } :: rest
          timingRef := ((mainArrival arrivals).map Arrival.position).or x.timingRef
          mainShift := 0
          trialTimer := some (x.tuning.dwell / 2 * 27000) } := by
        rw [← begun]
        rfl
      rw [ran, State.echoBuild, show (s.slot n).build arrivals = _ from built, if_neg (List.cons_ne_nil _ _)]
      rfl
    case fails =>
      have empty : table = [] := echoTable_of_silent silent _
      have noPath : mainArrival arrivals = none := mainArrival_none.mpr silent
      have built : x.build arrivals = { x with
          echo := [], total := 0, candidates := [], mainShift := 0, trialTimer := some x.halfDwell } := by
        have measured : x.measureEcho arrivals = { x with echo := [], total := 0, candidates := [] } := by
          rw [Slot.measureEcho, show echoTable x.detected arrivals = [] from empty]
          simp [totalEnergy, ranking, eligiblePaths, sortBy]
        rw [Slot.build, measured, noPath]
        rfl
      have failure : windowFailed { x with
          echo := [], total := 0, candidates := [], mainShift := 0, trialTimer := none } =
          { windowFailed x with echo := [], total := 0, candidates := [], mainShift := 0 } := by
        unfold windowFailed failed
        dsimp only
        split <;> rfl
      rw [ran, State.echoBuild, show (s.slot n).build arrivals = _ from built, if_pos rfl, State.failAttempt_window, State.slot_setSlot_same,
        State.setSlot_setSlot, failure]

/-! ## The trials (R72 to R76) -/

section

variable {done rest : List Candidate} {c : Candidate} {before after : TrialState}

/-- The running trial passes on and the other entries stay. -/
theorem moveTrial_running (done_stay : ∀ d ∈ done, d.trial ≠ before) (rest_stay : ∀ d ∈ rest, d.trial ≠ before)
    (running : c.trial = before) :
    moveTrial before after (done ++ c :: rest) = done ++ { c with trial := after } :: rest := by
  have stay {cs : List Candidate} (others : ∀ d ∈ cs, d.trial ≠ before) :
      (cs.map fun d => if d.trial = before then { d with trial := after } else d) = cs :=
    (List.map_congr_left fun d member => if_neg (others d member)).trans (List.map_id cs)
  rw [moveTrial, List.map_append, List.map_cons, stay done_stay, stay rest_stay, if_pos running]

theorem addPilotErrors_running (k : Nat) (done_stay : ∀ d ∈ done, d.trial ≠ .counting)
    (rest_stay : ∀ d ∈ rest, d.trial ≠ .counting) (running : c.trial = .counting) :
    addPilotErrors k (done ++ c :: rest) = done ++ { c with errors := min (c.errors + k) 65535 } :: rest := by
  have stay {cs : List Candidate} (others : ∀ d ∈ cs, d.trial ≠ .counting) :
      (cs.map fun d => if d.trial = .counting then { d with errors := min (d.errors + k) Config.count16Max } else d) = cs :=
    (List.map_congr_left fun d member => if_neg (others d member)).trans (List.map_id cs)
  rw [addPilotErrors, List.map_append, List.map_cons, stay done_stay, stay rest_stay, if_pos running]

/-- The entries that have been tried are passed over. -/
theorem beginTrial_append (tried : ∀ d ∈ done, d.trial ≠ .notTried) (cs : List Candidate) :
    beginTrial (done ++ cs) = done ++ beginTrial cs := by
  induction done with
  | nil => rfl
  | cons d done ih =>
    rw [List.cons_append, beginTrial, if_neg (tried d (List.mem_cons_self ..)),
      ih fun e member => tried e (List.mem_cons_of_mem d member), List.cons_append]

theorem find_running (done_stay : ∀ d ∈ done, d.trial ≠ .counting) (running : c.trial = .counting) :
    (done ++ c :: rest).find? (fun d => d.trial == .counting) = some c := by
  rw [List.find?_append, List.find?_eq_none.mpr fun d member => by simpa using done_stay d member,
    List.find?_cons_of_pos (by simpa using running)]
  rfl

theorem Slot.trialIn_running {x : Slot} (list : x.candidates = done ++ c :: rest) (running : c.trial = before) :
    x.trialIn before = true := by
  rw [Slot.trialIn, list, List.any_eq_true]
  exact ⟨c, by simp, by simp [running]⟩

end

/-- Settles O25, by the moment of the trial. -/
theorem trialsSettleCountAndEnd : Obligations.TrialsSettleCountAndEnd := by
  intro n done c rest s locked window list failed untried x
  have doneStay {t : TrialState} (other : t ≠ .failed) : ∀ d ∈ done, d.trial ≠ t := fun d member is =>
    other (is.symm.trans (failed d member))
  have restStay {t : TrialState} (other : t ≠ .notTried) : ∀ d ∈ rest, d.trial ≠ t := fun d member is =>
    other (is.symm.trans (untried d member))
  have ended (counting : c.trial = .counting) (expired : x.trialTimer = some 0) :
      exec (.countHalfEnd n) s = .next (s.endCount n) := by
    have due : ((s.slot n).acq == .window && (s.slot n).trialTimer == some 0 && (s.slot n).trialIn .counting) = true := by
      rw [Slot.trialIn_running list counting, show (s.slot n).trialTimer = some 0 from expired, window]
      rfl
    exact congrArg Host.Outcome.next (State.whenDue_of_due s _ _ locked due)
  have found (counting : c.trial = .counting) :
      (s.slot n).candidates.find? (fun c => c.trial == .counting) = some c := by
    rw [list]
    exact find_running (doneStay (by decide)) counting
  have failedOne (counting : c.trial = .counting) :
      moveTrial .counting .failed x.candidates = done ++ { c with trial := .failed } :: rest := by
    rw [show x.candidates = _ from list]
    exact moveTrial_running (doneStay (by decide)) (restStay (by decide)) counting
  have tried : ∀ e ∈ done ++ [{ c with trial := .failed }], e.trial ≠ .notTried := fun e member => by
    rcases List.mem_append.mp member with inDone | last
    · exact doneStay (by decide) e inDone
    · rw [List.mem_singleton.mp last]
      exact fun no => by cases no
  refine ⟨fun settling expired => ?settles, fun k counting => ⟨?counts, ?excluded⟩,
    fun counting expired within => ?passes, fun d more counting expired above next => ?next,
    fun counting expired above last => ?last⟩
  case settles =>
    have due : ((s.slot n).acq == .window && (s.slot n).trialTimer == some 0 && (s.slot n).trialIn .settling) = true := by
      rw [Slot.trialIn_running list settling, show (s.slot n).trialTimer = some 0 from expired, window]
      rfl
    refine congrArg Host.Outcome.next ((State.whenDue_of_due s _ _ locked due).trans ?_)
    rw [Slot.endSettle, list, moveTrial_running (doneStay (by decide)) (restStay (by decide)) settling]
    rfl
  case counts =>
    have due : ((s.slot n).acq == .window && (s.slot n).trialIn .counting) = true := by
      rw [Slot.trialIn_running list counting, window]
      rfl
    refine congrArg Host.Outcome.next ((State.whenDue_of_due s _ _ locked due).trans ?_)
    rw [Slot.countSymbol, if_neg Bool.false_ne_true, list,
      addPilotErrors_running k (doneStay (by decide)) (restStay (by decide)) counting]
  case excluded =>
    have due : ((s.slot n).acq == .window && (s.slot n).trialIn .counting) = true := by
      rw [Slot.trialIn_running list counting, window]
      rfl
    refine congrArg Host.Outcome.next ((State.whenDue_of_due s _ _ locked due).trans ?_)
    rw [Slot.countSymbol, if_pos rfl, State.setSlot_slot]
  case passes =>
    rw [ended counting expired, State.endCount, found counting]
    dsimp only
    have passed : moveTrial .counting .passed x.candidates = done ++ { c with trial := .passed } :: rest := by
      rw [show x.candidates = _ from list]
      exact moveTrial_running (doneStay (by decide)) (restStay (by decide)) counting
    rw [if_pos within, Slot.passTrial, passed]
    rfl
  case next =>
    have begun : beginTrial (moveTrial .counting .failed x.candidates) =
        done ++ { c with trial := .failed } :: { d with trial := .settling, errors := 0 } :: more := by
      have fresh : d.trial = .notTried := untried d (next ▸ List.mem_cons_self ..)
      have skipped := beginTrial_append tried (d :: more)
      rw [beginTrial, if_pos fresh] at skipped
      rw [failedOne counting, next]
      simpa using skipped
    have candidates : (s.slot n).failTrial.candidates =
        done ++ { c with trial := .failed } :: { d with trial := .settling, errors := 0 } :: more := begun
    have settling : (s.slot n).failTrial.trialIn .settling = true :=
      Slot.trialIn_running (done := done ++ [{ c with trial := .failed }]) (rest := more)
        (c := { d with trial := .settling, errors := 0 }) (by rw [candidates]; simp) rfl
    rw [ended counting expired, State.endCount, found counting]
    dsimp only
    rw [if_neg (Nat.not_le.mpr above), if_pos settling, Slot.failTrial, begun]
    rfl
  case last =>
    have begun : beginTrial (moveTrial .counting .failed x.candidates) = done ++ [{ c with trial := .failed }] := by
      have skipped := beginTrial_append tried []
      rw [failedOne counting, last]
      simpa [beginTrial] using skipped
    have noneSettles : (s.slot n).failTrial.trialIn .settling = false := by
      have candidates : (s.slot n).failTrial.candidates = done ++ [{ c with trial := .failed }] := begun
      rw [Slot.trialIn, candidates, List.any_eq_false]
      intro e member
      rcases List.mem_append.mp member with inDone | last
      · simpa using doneStay (t := .settling) (by decide) e inDone
      · rw [List.mem_singleton.mp last]
        exact fun no => by cases no
    have failure : windowFailed (s.slot n).failTrial =
        windowFailed { x with candidates := done ++ [{ c with trial := .failed }] } := by
      rw [Slot.failTrial, begun]
      unfold windowFailed Sys2Proof.Machine.failed
      dsimp only
      split <;> rfl
    rw [ended counting expired, State.endCount, found counting]
    dsimp only
    rw [if_neg (Nat.not_le.mpr above), if_neg (by simp [noneSettles]), State.failAttempt_window,
      State.slot_setSlot_same, State.setSlot_setSlot, failure]

end Sys2Proof.Machine
end

section
/-! SUPPORT. The rebuild in TRACK, its tracking decision, and what a frame end measures (R64, R67, R68, R77 to R80, R93,
R94). -/

namespace Sys2Proof.Machine

open Sys2Proof

/-! ## The rebuild (R67, R68, R78) -/

/-- The slot before the tracking decision of a rebuild with a main path. -/
def followedMain (x : Slot) (arrivals : List Arrival) (main : Arrival) : Slot :=
  { x.measureEcho arrivals with
    timingRef := some main.position
    mainShift := mainShiftOf x.timingRef main.position
    window := x.window.map fun r => clampDelay x.detected (r - mainShiftOf x.timingRef main.position) }

theorem Slot.rebuild_of_main {x : Slot} {arrivals : List Arrival} {main : Arrival}
    (found : mainArrival arrivals = some main) : x.rebuild arrivals = (followedMain x arrivals main).track := by
  rw [Slot.rebuild, Slot.followMain, found]
  rfl

/-- The tracking decision moves the window and nothing else. -/
theorem Slot.track_frame (x : Slot) : x.track = { x with window := x.track.window, movePending := x.track.movePending } := by
  by_cases moves : ∃ c r, x.top = some c ∧ x.window = some r ∧ x.beats c r = true
  · obtain ⟨c, r, top, window, beats⟩ := moves
    rw [x.track_moves top window beats]
  · rw [x.track_stays moves]

/-- A rebuild without a path. -/
theorem Slot.rebuild_of_silent {x : Slot} {arrivals : List Arrival} (silent : ∀ a ∈ arrivals, a.power = 0) :
    x.rebuild arrivals = { x with echo := [], total := 0, candidates := [], mainShift := 0 } := by
  have noPath : mainArrival arrivals = none := mainArrival_none.mpr silent
  have measured : x.measureEcho arrivals = { x with echo := [], total := 0, candidates := [] } := by
    rw [Slot.measureEcho, echoTable_of_silent silent]
    simp [totalEnergy, ranking, eligiblePaths, sortBy]
  rw [Slot.rebuild, measured, Slot.followMain, noPath]
  refine Slot.track_stays _ ?_
  rintro ⟨c, r, top, -, -⟩
  cases top

theorem clampDelay_eq (d : Structure) (r : Int) :
    (d.mode = .l → clampDelay (some d) r = if r < -4096 then -4096 else if 4095 < r then 4095 else r) ∧
    (d.mode = .s → clampDelay (some d) r = if r < -1024 then -1024 else if 1023 < r then 1023 else r) := by
  obtain ⟨rangeL, rangeS⟩ := delayRange d
  refine ⟨fun l => ?_, fun s => ?_⟩
  · obtain ⟨least, greatest⟩ := rangeL l
    rw [clampDelay, least, greatest]
    split_ifs <;> omega
  · obtain ⟨least, greatest⟩ := rangeS s
    rw [clampDelay, least, greatest]
    split_ifs <;> omega

/-- Settles O26: the rebuild by its tracking decision, the rest by the parts of a rebuild. -/
theorem windowMovesByOneEighth : Obligations.WindowMovesByOneEighth := by
  refine ⟨fun x arrivals main found => ?rebuild, Slot.rebuild_frame, fun reference position => ?shift, clampDelay_eq,
    fun arrivals => ⟨mainArrival_none, fun main found => ?main⟩, fun x arrivals silent => ?silent,
    fun n s locked pending => congrArg Host.Outcome.next (State.whenDue_of_due s _ _ locked pending)⟩
  case shift =>
    refine ⟨fun low high => if_pos ⟨low, high⟩, fun far => if_neg fun near => ?_⟩
    omega
  case main => exact mainArrival_spec found
  case silent =>
    rw [Slot.rebuild_of_silent silent]
    exact ⟨rfl, rfl, rfl, rfl, rfl, rfl, rfl⟩
  case rebuild =>
    intro y table list shift
    let z := followedMain x arrivals main
    have rebuilt : y = z.track := Slot.rebuild_of_main found
    have top : z.top = list.head? := rfl
    refine ⟨?_, ?_, ?_, ?_, ?_, fun absent => ?absent, fun w present => ?present⟩
    · rw [rebuilt, z.track_frame]
      rfl
    · rw [rebuilt, z.track_frame]
      rfl
    · rw [rebuilt, z.track_frame]
      rfl
    · rw [rebuilt, z.track_frame]
      rfl
    · rw [rebuilt, z.track_frame]
      rfl
    case absent =>
      have noWindow : z.window = none := by
        show x.window.map _ = none
        rw [absent]
        rfl
      have stays : z.track = z := z.track_stays fun ⟨c, r, _, window, _⟩ => by
        rw [noWindow] at window
        cases window
      rw [rebuilt, stays]
      exact ⟨noWindow, rfl⟩
    case present =>
      intro r e
      have window : z.window = some r := by
        show x.window.map _ = some r
        rw [present]
        rfl
      have beats (c : Candidate) : z.beats c r = true ↔ c.reference ≠ r ∧ e + e / 8 ≤ c.energy := by
        rw [Slot.beats, decide_eq_true_iff]
        rfl
      refine ⟨fun c rest entries differs more => ?_, fun none => ?_⟩
      · have first : z.top = some c := by
          rw [top, entries]
          rfl
        rw [rebuilt, z.track_moves first window ((beats c).mpr ⟨differs, more⟩)]
        exact ⟨rfl, rfl⟩
      · have stays : z.track = z := z.track_stays fun ⟨c, r', first, window', wins⟩ => by
          have same : r' = r := Option.some.inj (window'.symm.trans window)
          rw [same, beats] at wins
          rw [top, List.head?_eq_some_iff] at first
          obtain ⟨rest, entries⟩ := first
          exact none c rest entries wins
        rw [rebuilt, stays]
        exact ⟨window, rfl⟩

/-! ## The measurements of a frame end (R93, R94) -/

theorem storedOffset_spec (milliHz : Int) :
    -250000 ≤ storedOffset milliHz ∧ storedOffset milliHz ≤ 250000 ∧
    (250000000 ≤ milliHz → storedOffset milliHz = 250000) ∧ (milliHz ≤ -250000000 → storedOffset milliHz = -250000) ∧
    (0 ≤ milliHz → milliHz ≤ 250000000 →
      milliHz - 500 < 1000 * storedOffset milliHz ∧ 1000 * storedOffset milliHz ≤ milliHz + 500) ∧
    storedOffset (-milliHz) = -storedOffset milliHz := by
  simp only [storedOffset, Config.offsetLimitHz]
  split_ifs <;> omega

/-- How many of the first n numbers pass a test that every smaller one passes too. -/
theorem le_countP_range {p : Nat → Bool} (down : ∀ j k, j ≤ k → p k = true → p j = true) {n i : Nat} (low : 1 ≤ i)
    (high : i ≤ n) : i ≤ (List.range n).countP p ↔ p (i - 1) = true := by
  obtain ⟨rest, rfl⟩ := Nat.exists_eq_add_of_le high
  constructor
  · intro many
    by_contra fails
    have before : i - 1 + (1 + rest) = i + rest := by omega
    have noneLater : ((List.range (1 + rest)).map (i - 1 + ·)).countP p = 0 := by
      rw [List.countP_eq_zero]
      intro k member
      obtain ⟨j, -, rfl⟩ := List.mem_map.mp member
      exact fun passes => fails (down (i - 1) _ (by omega) passes)
    rw [← before, List.range_add, List.countP_append, noneLater] at many
    have few := (List.range (i - 1)).countP_le_length (p := p)
    rw [List.length_range] at few
    omega
  · intro passes
    have all : (List.range i).countP p = i := by
      rw [List.countP_eq_length.mpr, List.length_range]
      intro k member
      rw [List.mem_range] at member
      exact down k (i - 1) (by omega) passes
    rw [List.range_add, List.countP_append, all]
    exact Nat.le_add_right _ _

theorem merOf_spec (pp ep : Nat) :
    merOf pp ep ≤ 450 ∧ merOf pp 0 = 450 ∧
      (0 < ep → ∀ i, 1 ≤ i → i ≤ 450 → (i ≤ merOf pp ep ↔ 10 ^ (2 * i - 1) * ep ^ 200 ≤ pp ^ 200)) := by
  refine ⟨?_, if_pos rfl, fun positive i low high => ?_⟩
  · unfold merOf
    split
    · exact le_rfl
    · exact (List.countP_le_length).trans_eq List.length_range
  · have exponent : 2 * (i - 1) + 1 = 2 * i - 1 := by omega
    rw [merOf, if_neg (by omega), le_countP_range _ low high, decide_eq_true_iff, exponent]
    intro j k below passes
    rw [decide_eq_true_iff] at *
    have power : 10 ^ (2 * j + 1) ≤ 10 ^ (2 * k + 1) := Nat.pow_le_pow_right (by decide) (by omega)
    exact (Nat.mul_le_mul_right _ power).trans passes

/-- A bad word without a pending change moves the position and drops the agreement. -/
theorem State.trackResult_bad {s : State} {n : SlotId} {x : Slot} (quiet : x.changePending = false) :
    (s.setSlot n x).trackResult n .bad = s.setSlot n { x with framePos := x.framePos + 1, halfMade := none } := by
  have stays : x.exitsBy .bad = false := by simp [Slot.exitsBy, Slot.confirmedBy, Slot.boundaryBy, Slot.announcedBy, quiet]
  have after : x.afterWord .bad = { x with framePos := x.framePos + 1, halfMade := none } := by
    rw [Slot.afterWord_stays (by simp [stays]), quiet]
    show ({ x with framePos := x.framePos + 1, halfMade := none, changePending := false } : Slot) = _
    rw [← quiet]
  rw [State.trackResult_eq, State.slot_setSlot_same, stays, State.setSlot_setSlot, after]
  rfl

theorem State.trackResult_latchIf_bad {s : State} {n : SlotId} {x : Slot} (quiet : x.changePending = false) (b : Bool)
    (f : EventFlag) :
    ((s.setSlot n x).latchIf b f).trackResult n .bad =
      (s.setSlot n { x with framePos := x.framePos + 1, halfMade := none }).latchIf b f := by
  cases b
  · exact State.trackResult_bad quiet
  · have latched := State.trackResult_bad (s := s.latch f) (n := n) quiet
    rw [State.setSlot_latch, State.setSlot_latch] at latched
    exact latched

/-- Settles O27: the rebuild and the bad word commute, and the measurements by their integer forms. -/
theorem frameEndRebuildsAndMeasures : Obligations.FrameEndRebuildsAndMeasures := by
  refine ⟨fun n milliHz arrivals pp ep order s locked track quiet => ?frame, storedOffset_spec, merOf_spec⟩
  let carried := (s.slot n).followCarrier milliHz
  let rebuilt := { carried.rebuild arrivals with mer := some (merOf pp ep) }
  have due : (s.slot n).acq.demodulates = true := by rw [track]; rfl
  have still : carried.acq = .track := track
  have ran : exec (.signallingFrameEnd n .bad milliHz arrivals pp ep order) s =
      .next ((s.setSlot n carried).trackFrame n .bad arrivals pp ep order) := by
    refine congrArg Host.Outcome.next ((State.whenDue_of_due s _ _ locked due).trans ?_)
    rw [State.frameEnd, show ((s.slot n).followCarrier milliHz).acq = .track from track]
  have rebuildFirst : ((s.setSlot n carried).rebuildFrame n arrivals pp ep).trackResult n .bad =
      (s.setSlot n { rebuilt with framePos := (s.slot n).framePos + 1, halfMade := none }).latchIf
        (carried.rebuild arrivals).windowSpreads (.echoSpread n) := by
    obtain ⟨-, pending, position⟩ := carried.rebuild_keeps arrivals
    have calm : rebuilt.changePending = false := pending.trans quiet
    rw [State.rebuildFrame, State.slot_setSlot_same, State.setSlot_setSlot]
    refine (State.trackResult_latchIf_bad (x := rebuilt) calm _ _).trans ?_
    rw [show rebuilt.framePos = (s.slot n).framePos from position]
  rw [ran]
  cases order with
  | rebuildFirst => exact congrArg Host.Outcome.next rebuildFirst
  | exitFirst => exact congrArg Host.Outcome.next rebuildFirst
  | wordFirst =>
    have moved : ({ carried with framePos := carried.framePos + 1, halfMade := none } : Slot).rebuild arrivals =
        { carried.rebuild arrivals with framePos := carried.framePos + 1, halfMade := none } :=
      carried.rebuild_advance arrivals _ _
    rw [State.trackFrame, State.trackResult_bad (show carried.changePending = false from quiet), State.ifTracking,
      State.slot_setSlot_same, if_pos still, State.rebuildFrame, State.slot_setSlot_same, State.setSlot_setSlot, moved]
    rfl

end Sys2Proof.Machine
end

section
/-! SUPPORT. Packets completed in TRACK (R84 to R91): the counts and the runs, the exits to HOLD, and what is handed to
delivery. -/

namespace Sys2Proof.Machine

open Sys2Proof

theorem exec_packetCompletion_of_track {n : SlotId} {s : State} (locked : s.power = .locked)
    (tracks : (s.slot n).acq = .track) (report : DecoderReport) (p : Packet) (first : CtxId) :
    exec (.packetCompletion n report p first) s = .next (s.completeTrack n (outcomeOf report p) p first) := by
  rw [exec_packetCompletion_of_decodes locked (by rw [tracks]; rfl), State.complete, tracks]

/-! ## The runs in TRACK (R86, R88, R89) -/

theorem Slot.holds_iff (x : Slot) : x.holds = true ↔ x.tuning.burstLimit ≤ x.uncRun ∨ 4 ≤ x.wrongRun :=
  decide_eq_true_iff

/-- The slot after the counts and runs of an uncorrectable packet in TRACK. -/
def Slot.afterBad (p : Packet) (x : Slot) : Slot :=
  { x with
    uncRun := x.uncRun + 1
    wrongRun := if p[0] = 0x47 then 0 else x.wrongRun + 1
    counters := { x.counters with uncorrectable := min (x.counters.uncorrectable + 1) 4294967295 } }

theorem Slot.runTrack_uncorrectable (p : Packet) (x : Slot) : x.runTrack .uncorrectable p = x.afterBad p := by
  by_cases right : p[0] = 0x47
  · have found := packetSyncRight_iff.mpr right
    simp only [Slot.runTrack, Slot.afterBad, if_pos found, if_pos right]
    rfl
  · have missing : ¬packetSyncRight p = true := mt packetSyncRight_iff.mp right
    simp only [Slot.runTrack, Slot.afterBad, if_neg missing, if_neg right]
    rfl

theorem Slot.runTrack_good {o : DecoderReport} (good : isUncorrectable o = false) {p : Packet} (right : p[0] = 0x47)
    (x : Slot) : x.runTrack o p = { x with uncRun := 0, wrongRun := 0, counters := x.counters.countOutcome o } := by
  simp [Slot.runTrack, good, packetSyncRight_iff.mpr right]

/-! ## The packet handed on (R88) -/

theorem Slot.handsOn_wrong {p : Packet} (wrong : p[0] ≠ 0x47) (o : DecoderReport) (x : Slot) : x.handsOn o p = none :=
  if_neg fun right => wrong (packetSyncRight_iff.mp right)

theorem Slot.handsOn_good {o : DecoderReport} (good : isUncorrectable o = false) {p : Packet} (right : p[0] = 0x47)
    (x : Slot) : x.handsOn o p = some p := by
  unfold Slot.handsOn
  rw [if_pos (packetSyncRight_iff.mpr right)]
  cases o with
  | clean => rfl
  | corrected k => rfl
  | uncorrectable => cases good

theorem Slot.handsOn_drop {x : Slot} (drop : x.tuning.policy = .drop) (p : Packet) :
    x.handsOn .uncorrectable p = none := by
  unfold Slot.handsOn
  rw [drop]
  exact ite_self _

theorem Slot.handsOn_mark {x : Slot} (mark : x.tuning.policy = .mark) {p : Packet} (right : p[0] = 0x47) :
    x.handsOn .uncorrectable p = some (packetMark p) := by
  unfold Slot.handsOn
  rw [mark]
  exact if_pos (packetSyncRight_iff.mpr right)

theorem Slot.handsOn_bad_isSome (x : Slot) (p : Packet) :
    (x.handsOn .uncorrectable p).isSome = true ↔ p[0] = 0x47 ∧ x.tuning.policy = .mark := by
  by_cases right : p[0] = 0x47
  · cases policy : x.tuning.policy with
    | mark => simp only [Slot.handsOn_mark policy right, Option.isSome_some, true_iff, and_true]; exact right
    | drop => simp [Slot.handsOn_drop policy]
  · simp only [Slot.handsOn_wrong right, Option.isSome_none, Bool.false_eq_true, false_iff, not_and]
    exact fun found => absurd found right

/-! ## The exits to HOLD (R53, R55, R56, R89) -/

/-- The counters of a slot whose packet a condition of R89 withholds (log entry 33). -/
def withheldCounters (p : Packet) (x : Slot) : SlotCounters :=
  let counted := { x.counters with uncorrectable := min (x.counters.uncorrectable + 1) 4294967295 }
  if p[0] = 0x47 ∧ x.tuning.policy = .mark ∧ Config.countsWithheld = true
    then { counted with delivered := min (x.counters.delivered + 1) 4294967295 } else counted

theorem Slot.withhold_afterBad (p : Packet) (x : Slot) :
    (x.afterBad p).withhold .uncorrectable p = { x.afterBad p with counters := withheldCounters p x } := by
  have counts : (((x.afterBad p).handsOn .uncorrectable p).isSome && Config.countsWithheld) = true ↔
      p[0] = 0x47 ∧ x.tuning.policy = .mark ∧ Config.countsWithheld = true := by
    rw [Bool.and_eq_true, Slot.handsOn_bad_isSome, and_assoc]
    rfl
  unfold Slot.withhold withheldCounters
  by_cases withheld : p[0] = 0x47 ∧ x.tuning.policy = .mark ∧ Config.countsWithheld = true
  · rw [if_pos (counts.mpr withheld)]
    simp only [if_pos withheld]
    rfl
  · rw [if_neg (mt counts.mp withheld)]
    simp only [if_neg withheld]
    rfl

theorem State.enterHold_stays {s : State} {n : SlotId} (waits : (s.slot n).tuning.holdMs ≠ 0) :
    s.enterHold n = (s.setSlot n (s.slot n).enterHold).endCaptures n :=
  if_neg waits

theorem State.enterHold_expires {s : State} {n : SlotId} (expires : (s.slot n).tuning.holdMs = 0) :
    s.enterHold n = ((s.setSlot n (s.slot n).enterHold).endCaptures n).expireHold n :=
  if_pos expires

theorem State.setSlot_endCaptures (s : State) (n m : SlotId) (x : Slot) :
    (s.endCaptures m).setSlot n x = (s.setSlot n x).endCaptures m := rfl

theorem State.completeTrack_bad (s : State) (n : SlotId) (p : Packet) (first : CtxId) :
    (((s.slot n).tuning.burstLimit ≤ (s.slot n).uncRun + 1 ∨
        4 ≤ (if p[0] = 0x47 then 0 else (s.slot n).wrongRun + 1)) →
      s.completeTrack n .uncorrectable p first =
        (s.setSlot n { (s.slot n).afterBad p with counters := withheldCounters p (s.slot n) }).enterHold n) ∧
    (¬((s.slot n).tuning.burstLimit ≤ (s.slot n).uncRun + 1 ∨
        4 ≤ (if p[0] = 0x47 then 0 else (s.slot n).wrongRun + 1)) →
      (p[0] ≠ 0x47 ∨ (s.slot n).tuning.policy = .drop) →
      s.completeTrack n .uncorrectable p first = s.setSlot n ((s.slot n).afterBad p)) := by
  have holds : ((s.slot n).afterBad p).holds = true ↔ (s.slot n).tuning.burstLimit ≤ (s.slot n).uncRun + 1 ∨
      4 ≤ (if p[0] = 0x47 then 0 else (s.slot n).wrongRun + 1) := Slot.holds_iff _
  rw [State.completeTrack, Slot.runTrack_uncorrectable]
  refine ⟨fun held => ?leaves, fun stays discarded => ?stays⟩
  case leaves => exact (if_pos (holds.mpr held)).trans (by rw [Slot.withhold_afterBad])
  case stays =>
    have nothing : ((s.slot n).afterBad p).handsOn .uncorrectable p = none := by
      rcases discarded with wrong | drop
      · exact Slot.handsOn_wrong wrong _ _
      · exact Slot.handsOn_drop drop p
    refine (if_neg (mt holds.mp stays)).trans ?_
    rw [nothing]

/-- Settles O29, by the hold time and the runs that the packet completes. -/
theorem badPacketsInTrack : Obligations.BadPacketsInTrack := by
  intro n report p first s locked tracks bad x wrong counted withheld
  obtain ⟨leaves, stays⟩ := s.completeTrack_bad n p first
  refine ⟨_, by rw [exec_packetCompletion_of_track locked tracks, outcomeOf_eq_uncorrectable bad],
    fun held waits => ?hold, fun held expires => ?expires, fun kept discarded => ?discarded⟩
  case hold =>
    have entered := leaves held
    rw [State.enterHold_stays (by rw [State.slot_setSlot_same]; exact waits), State.slot_setSlot_same,
      State.setSlot_setSlot] at entered
    rw [entered]
    refine ⟨?_, fun c => ?_, ?_⟩
    · rw [State.slot_endCaptures, State.slot_setSlot_same]
      rfl
    · rw [State.capture_endCaptures, State.capture_setSlot]
    · rw [State.slot_endCaptures, State.slot_setSlot_same]
      rfl
  case expires =>
    have entered := leaves held
    rw [State.enterHold_expires (by rw [State.slot_setSlot_same]; exact expires), State.slot_setSlot_same,
      State.setSlot_setSlot, State.expireHold_eq, State.slot_endCaptures, State.slot_setSlot_same,
      State.setSlot_endCaptures, State.setSlot_setSlot] at entered
    rw [entered]
    refine ⟨?_, fun c => ?_, rfl, ?_⟩
    · rw [State.slot_latch, State.slot_endCaptures, State.slot_setSlot_same]
      simp only [withheldCounters, withheld, attemptStarted]
      split <;> rfl
    · rw [State.capture_latch, State.capture_endCaptures, State.capture_setSlot]
    · rw [State.slot_latch, State.slot_endCaptures, State.slot_setSlot_same]
      rfl
  case discarded => exact stays kept discarded

/-! ## Good and marked packets (R88, R91) -/

theorem State.completeTrack_held {s : State} {n : SlotId} {o : DecoderReport} {p : Packet} (first : CtxId)
    (held : ((s.slot n).runTrack o p).holds = true) :
    s.completeTrack n o p first = (s.setSlot n (((s.slot n).runTrack o p).withhold o p)).enterHold n :=
  if_pos held

theorem State.completeTrack_delivers {s : State} {n : SlotId} {o : DecoderReport} {p q : Packet} (first : CtxId)
    (stays : ¬((s.slot n).runTrack o p).holds = true) (handed : ((s.slot n).runTrack o p).handsOn o p = some q) :
    s.completeTrack n o p first = (s.setSlot n ((s.slot n).runTrack o p)).deliver n q first := by
  refine (if_neg stays).trans ?_
  rw [handed]

/-- A corrected packet is handled as a clean one after it has been counted. -/
theorem State.completeTrack_corrected (s : State) (n : SlotId) (k : Nat) {p : Packet} (right : p[0] = 0x47)
    (first : CtxId) :
    s.completeTrack n (.corrected k) p first =
      (s.setSlot n ((s.slot n).counted (.corrected k))).completeTrack n .clean p first := by
  have run : (s.slot n).runTrack (.corrected k) p =
      ((s.setSlot n ((s.slot n).counted (.corrected k))).slot n).runTrack .clean p := by
    rw [State.slot_setSlot_same, Slot.runTrack_good rfl right, Slot.runTrack_good rfl right]
    rfl
  have handed (x : Slot) : x.handsOn (.corrected k) p = x.handsOn .clean p := by
    rw [Slot.handsOn_good rfl right, Slot.handsOn_good rfl right]
  have withheld (x : Slot) : x.withhold (.corrected k) p = x.withhold .clean p := by
    unfold Slot.withhold
    rw [handed]
  by_cases held : ((s.slot n).runTrack (.corrected k) p).holds = true
  · rw [State.completeTrack_held first held, State.completeTrack_held first (run ▸ held), withheld, run,
      State.setSlot_setSlot]
  · have clean : ((s.slot n).runTrack (.corrected k) p).handsOn .clean p = some p := Slot.handsOn_good rfl right _
    rw [State.completeTrack_delivers first held ((handed _).trans clean),
      State.completeTrack_delivers first (run ▸ held) (run ▸ clean), run, State.setSlot_setSlot]

/-! ## What a delivery leaves of the slot (R91, R109, R110) -/

section

variable {s : State} {i : Nat} {n : SlotId} {stamp : Stamp} {p : Packet} {e : Side}

theorem State.copyAttempt_unsent (unsent : ¬(s.route i).sends e = true) : s.copyAttempt i n stamp p e = s :=
  if_neg unsent

theorem State.copyAttempt_stopped (sends : (s.route i).sends e = true) (stopped : (s.egress e).run ≠ .running) :
    s.copyAttempt i n stamp p e =
      s.countEgress e fun c => { c with stoppedDiscards := bump c.stoppedDiscards 1 } :=
  (if_pos sends).trans (if_neg stopped)

theorem State.copyAttempt_dropped (sends : (s.route i).sends e = true) (running : (s.egress e).run = .running)
    (refused : s.grant e (s.route i).cls = none) : s.copyAttempt i n stamp p e = s.dropCopy i e := by
  refine ((if_pos sends).trans (if_pos running)).trans ?_
  rw [refused]

theorem State.copyAttempt_granted (sends : (s.route i).sends e = true) (running : (s.egress e).run = .running)
    {id : BufferId} (granted : s.grant e (s.route i).cls = some id) :
    s.copyAttempt i n stamp p e =
      s.setEgress e ((s.egress e).enqueue (routedBuffer id (s.route i) e n stamp p)) := by
  refine ((if_pos sends).trans (if_pos running)).trans ?_
  rw [granted]

end

theorem State.copyAttempt_setSlot (s : State) (i : Nat) (n m : SlotId) (x : Slot) (stamp : Stamp) (p : Packet)
    (e : Side) : (s.setSlot m x).copyAttempt i n stamp p e = (s.copyAttempt i n stamp p e).setSlot m x := by
  have sameRun : ((s.setSlot m x).egress e).run = (s.egress e).run := by rw [State.egress_setSlot]
  have sameGrant (cls : PacketClass) : (s.setSlot m x).grant e cls = s.grant e cls := by cases e <;> rfl
  by_cases sends : (s.route i).sends e = true
  · have sends' : ((s.setSlot m x).route i).sends e = true := sends
    by_cases running : (s.egress e).run = .running
    · cases granted : s.grant e (s.route i).cls with
      | some id =>
        rw [State.copyAttempt_granted sends running granted,
          State.copyAttempt_granted sends' (sameRun.trans running) ((sameGrant _).trans granted)]
        cases e <;> rfl
      | none =>
        rw [State.copyAttempt_dropped sends running granted,
          State.copyAttempt_dropped sends' (sameRun.trans running) ((sameGrant _).trans granted)]
        cases e <;> rfl
    · rw [State.copyAttempt_stopped sends running, State.copyAttempt_stopped sends' (sameRun ▸ running)]
      cases e <;> rfl
  · have unsent' : ¬((s.setSlot m x).route i).sends e = true := sends
    rw [State.copyAttempt_unsent sends, State.copyAttempt_unsent unsent']

/-- The slot n with another uncorrectable run, which a delivery does not read. -/
def State.withRun (s : State) (n : SlotId) (k : Nat) : State := s.setSlot n { s.slot n with uncRun := k }

theorem State.countSlot_withRun (s : State) (n : SlotId) (k : Nat) (f : SlotCounters → SlotCounters) :
    (s.withRun n k).countSlot n f = (s.countSlot n f).withRun n k := by
  simp only [State.withRun, State.countSlot, State.slot_setSlot_same, State.setSlot_setSlot]

theorem State.slot_copyAttempt (s : State) (i : Nat) (n m : SlotId) (stamp : Stamp) (p : Packet) (e : Side) :
    (s.copyAttempt i n stamp p e).slot m = s.slot m := by
  rw [State.copyAttempt_frame]
  rfl

theorem State.copyAttempt_withRun (s : State) (i : Nat) (n m : SlotId) (k : Nat) (stamp : Stamp) (p : Packet)
    (e : Side) : (s.withRun m k).copyAttempt i n stamp p e = (s.copyAttempt i n stamp p e).withRun m k := by
  rw [State.withRun, State.copyAttempt_setSlot, State.withRun, State.slot_copyAttempt]

theorem State.routePacket_withRun (s : State) (n : SlotId) (k : Nat) (stamp : Stamp) (p : Packet) :
    (s.withRun n k).routePacket n stamp p = (s.routePacket n stamp p).withRun n k := by
  by_cases null : packetPid p = nullPid
  · have counts (u : State) : u.routePacket n stamp p = u.countSlot n fun c => { c with nulls := bump c.nulls 1 } :=
      if_pos null
    rw [counts, counts, State.countSlot_withRun]
  · have looksUp (u : State) : u.routePacket n stamp p = _ := if_neg null
    cases found : s.lookup n.val (packetPid p).toNat with
    | none =>
      have found' : (s.withRun n k).lookup n.val (packetPid p).toNat = none := found
      rw [looksUp, looksUp, found, found']
      exact s.countSlot_withRun n k _
    | some i =>
      have found' : (s.withRun n k).lookup n.val (packetPid p).toNat = some i := found
      rw [looksUp, looksUp, found, found']
      have hits : (s.withRun n k).hit i = (s.hit i).withRun n k := rfl
      simp only [hits, State.copyAttempt_withRun]

theorem State.examine_withRun (s : State) (n m : SlotId) (k : Nat) (p : Packet) (c : CtxId) :
    (s.withRun m k).examine n p c = (s.examine n p c).withRun m k := by
  have same : (s.withRun m k).capture c = s.capture c := by rw [State.withRun, State.capture_setSlot]
  by_cases watched : ((s.capture c).watches n && packetPid p == (s.capture c).pid) = true
  · have examined : s.examine n p c = s.setCapture c ((s.capture c).qualify (s.allocate .capture) p) := if_pos watched
    rw [examined, State.examine, same, if_pos watched]
    cases c <;> rfl
  · have kept : s.examine n p c = s := if_neg watched
    rw [kept, State.examine, same, if_neg watched]

theorem State.deliver_withRun (s : State) (n : SlotId) (k : Nat) (p : Packet) (first : CtxId) :
    (s.withRun n k).deliver n p first = (s.deliver n p first).withRun n k := by
  have time : (s.withRun n k).time = s.time := rfl
  rw [State.deliver, State.countSlot_withRun, time, State.routePacket_withRun, State.examineBoth,
    State.examine_withRun, State.examine_withRun]
  rfl

/-! ## The error indicator (R88) -/

theorem packetMark_get_other (p : Packet) {i : Nat} (h : i < 188) (other : i ≠ 1) : (packetMark p)[i] = p[i] :=
  Vector.getElem_set_ne _ _ (Ne.symm other)

theorem packetMark_get_one (p : Packet) : (packetMark p)[1] = p[1] ||| 0x80 := Vector.getElem_set_self _

theorem orTopBit (b : Byte) : (b ||| 0x80).getLsbD 7 = true ∧ (b ||| 0x80).extractLsb' 0 7 = b.extractLsb' 0 7 := by
  revert b
  decide +kernel

theorem exec_clean_of_counted {n : SlotId} {s : State} (locked : s.power = .locked) (tracks : (s.slot n).acq = .track)
    (o : DecoderReport) {p : Packet} (right : p[0] = 0x47) (first : CtxId) :
    exec (.packetCompletion n .clean p first) (s.setSlot n ((s.slot n).counted o)) =
      .next ((s.setSlot n ((s.slot n).counted o)).completeTrack n .clean p first) := by
  have tracks' : ((s.setSlot n ((s.slot n).counted o)).slot n).acq = .track := by
    rw [State.slot_setSlot_same]
    exact tracks
  have locked' : (s.setSlot n ((s.slot n).counted o)).power = .locked := locked
  rw [exec_packetCompletion_of_track locked' tracks', outcomeOf_of_right right]

/-- Settles O31: a corrected packet counted first, a marked one delivered beside its uncorrectable run. -/
theorem correctedAndMarkedPacketsAreDelivered : Obligations.CorrectedAndMarkedPacketsAreDelivered := by
  refine ⟨fun n k p first s locked tracks right => ?corrected, fun n p first s locked tracks right mark below => ?marked,
    fun p => ?mark⟩
  case corrected =>
    rw [exec_packetCompletion_of_track locked tracks, outcomeOf_of_right right, State.completeTrack_corrected s n k right]
    exact (exec_clean_of_counted locked tracks (.corrected k) right first).symm
  case marked =>
    have right' : (packetMark p)[0] = 0x47 := (packetMark_get_other p (by decide) (by decide)).trans right
    have below' : ¬((s.slot n).tuning.burstLimit ≤ (s.slot n).uncRun + 1 ∨
        4 ≤ (if p[0] = 0x47 then 0 else (s.slot n).wrongRun + 1)) := by
      rw [if_pos right]
      omega
    have staysBad : ¬((s.slot n).runTrack .uncorrectable p).holds = true := by
      rw [Slot.runTrack_uncorrectable, Slot.holds_iff]
      exact below'
    have handedBad : ((s.slot n).runTrack .uncorrectable p).handsOn .uncorrectable p = some (packetMark p) := by
      rw [Slot.runTrack_uncorrectable]
      exact Slot.handsOn_mark mark right
    have staysClean : ¬(((s.setSlot n ((s.slot n).counted .uncorrectable)).slot n).runTrack .clean
        (packetMark p)).holds = true := by
      rw [State.slot_setSlot_same, Slot.runTrack_good rfl right', Slot.holds_iff]
      change ¬((s.slot n).tuning.burstLimit ≤ 0 ∨ 4 ≤ 0)
      omega
    have handedClean := Slot.handsOn_good (o := .clean) rfl right'
      (((s.setSlot n ((s.slot n).counted .uncorrectable)).slot n).runTrack .clean (packetMark p))
    refine ⟨_, exec_clean_of_counted locked tracks .uncorrectable right' first, ?_⟩
    rw [exec_packetCompletion_of_track locked tracks, outcomeOf_of_right right,
      State.completeTrack_delivers first staysBad handedBad]
    refine Eq.trans ?_ (congrArg Host.Outcome.next (congrArg (State.withRun · n ((s.slot n).uncRun + 1))
      (State.completeTrack_delivers first staysClean handedClean).symm))
    rw [← State.deliver_withRun, State.slot_setSlot_same, Slot.runTrack_good rfl right',
      Slot.runTrack_uncorrectable, State.withRun, State.slot_setSlot_same, State.setSlot_setSlot,
      State.setSlot_setSlot, Slot.afterBad, if_pos right]
    rfl
  case mark =>
    refine ⟨?_, ?_, fun i other => ?_⟩
    · rw [packetError, packetMark_get_one]
      exact (orTopBit p[1]).1
    · rw [packetMark_get_one, (orTopBit p[1]).2]
    · exact packetMark_get_other p i.isLt fun h => other (Fin.ext h)

end Sys2Proof.Machine
end

section
/-! SUPPORT. A delivered packet (R91, R109 to R113, R189): the copy attempts of its entry, each as if it were alone, and
the contexts that examine it. -/

namespace Sys2Proof.Machine

open Sys2Proof

/-! ## The contexts (R189) -/

/-- What a context becomes when a delivery to slot n reaches it. -/
def CaptureContext.examined (n : SlotId) (p : Packet) (granted : Option BufferId) (x : CaptureContext) :
    CaptureContext :=
  if (x.state = .active ∨ x.state = .suspended) ∧ x.slot = n ∧ x.pid = packetPid p then x.qualify granted p else x

theorem State.setCapture_self (s : State) (c : CtxId) : s.setCapture c (s.capture c) = s := by cases c <;> rfl

theorem State.examine_eq (s : State) (n : SlotId) (p : Packet) (c : CtxId) :
    s.examine n p c = s.setCapture c ((s.capture c).examined n p (s.allocate .capture)) := by
  have watched : ((s.capture c).watches n && packetPid p == (s.capture c).pid) = true ↔
      ((s.capture c).state = .active ∨ (s.capture c).state = .suspended) ∧ (s.capture c).slot = n ∧
        (s.capture c).pid = packetPid p := by
    simp only [CaptureContext.watches, Bool.and_eq_true, Bool.or_eq_true, beq_iff_eq, and_assoc,
      eq_comm (a := packetPid p)]
  unfold State.examine CaptureContext.examined
  by_cases examines : ((s.capture c).watches n && packetPid p == (s.capture c).pid) = true
  · rw [if_pos examines, if_pos (watched.mp examines)]
  · rw [if_neg examines, if_neg (mt watched.mpr examines), State.setCapture_self]

theorem State.capture_examineBoth (s : State) (n : SlotId) (p : Packet) (first : CtxId) :
    (s.examineBoth n p first).capture first = (s.capture first).examined n p (s.allocate .capture) ∧
    (s.examineBoth n p first).capture (otherContext first) =
      (s.capture (otherContext first)).examined n p
        ((s.setCapture first ((s.examineBoth n p first).capture first)).allocate .capture) := by
  rw [State.examineBoth, State.examine_eq s, State.examine_eq]
  cases first <;> exact ⟨rfl, rfl⟩

/-- A delivery examines the contexts as they stood before it was routed. -/
theorem State.capture_delivered (s : State) (n : SlotId) (stamp : Stamp) (p : Packet) (first : CtxId) :
    let t := (s.routePacket n stamp p).examineBoth n p first
    t.capture first = (s.capture first).examined n p (s.allocate .capture) ∧
    t.capture (otherContext first) =
      (s.capture (otherContext first)).examined n p ((s.setCapture first (t.capture first)).allocate .capture) := by
  intro t
  obtain ⟨atFirst, atOther⟩ := (s.routePacket n stamp p).capture_examineBoth n p first
  obtain ⟨-, captures⟩ := s.routePacket_frame n stamp p
  rw [captures] at atFirst atOther
  rw [(s.allocate_routePacket n stamp p first (s.capture first)).1] at atFirst
  rw [(s.allocate_routePacket n stamp p first _).2] at atOther
  exact ⟨atFirst, atOther⟩

theorem State.examineBoth_keeps (s : State) (n : SlotId) (p : Packet) (first : CtxId) :
    (∀ m, (s.examineBoth n p first).slot m = s.slot m) ∧ (∀ e, (s.examineBoth n p first).egress e = s.egress e) ∧
    (∀ j, (s.examineBoth n p first).route j = s.route j) ∧ (s.examineBoth n p first).events = s.events := by
  rw [State.examineBoth_frame]
  exact ⟨fun m => rfl, fun e => by cases e <;> rfl, fun j => rfl, rfl⟩

/-! ## One copy attempt (R110 to R113) -/

/-- A copy attempt through entry i is a drop at an egress. -/
abbrev State.dropsAt (s : State) (i : Nat) (e : Side) : Prop :=
  (s.route i).sends e = true ∧ (s.egress e).run = .running ∧ s.grant e (s.route i).cls = none

/-- The drops counter of an entry after its copy attempt for an egress. -/
def State.dropsAfter (s : State) (i : Nat) (e : Side) (d : Nat) : Nat :=
  if s.dropsAt i e then min (d + 1) 4294967295 else d

section

variable {s u : State} {i : Nat} {n : SlotId} {stamp : Stamp} {p : Packet} {e : Side}

theorem State.events_copyAttempt (s : State) (i : Nat) (n : SlotId) (stamp : Stamp) (p : Packet) (e : Side) :
    (s.copyAttempt i n stamp p e).events =
      if s.dropsAt i e then latchEvent (.dropping e) s.events else s.events := by
  obtain ⟨unsent, stopped, dropped, granted⟩ := s.copyAttempt_spec i n stamp p e
  by_cases sends : (s.route i).sends e = true
  · by_cases running : (s.egress e).run = .running
    · rcases Option.eq_none_or_eq_some (s.grant e (s.route i).cls) with grant | ⟨id, grant⟩
      · rw [(dropped sends running grant).2, if_pos ⟨sends, running, grant⟩]
      · rw [(granted id sends running grant).2, if_neg (by simp [State.dropsAt, grant])]
    · rw [(stopped sends running).2, if_neg fun drops => running drops.2.1]
  · rw [unsent (Bool.eq_false_iff.mpr sends), if_neg fun drops => sends drops.1]

theorem State.route_copyAttempt (rising : Rising s.routes) (i : Nat) (n : SlotId) (stamp : Stamp) (p : Packet) (e : Side) :
    (s.copyAttempt i n stamp p e).route i = { s.route i with drops := s.dropsAfter i e (s.route i).drops } := by
  unfold State.dropsAfter
  by_cases sends : (s.route i).sends e = true
  · by_cases running : (s.egress e).run = .running
    · rcases Option.eq_none_or_eq_some (s.grant e (s.route i).cls) with grant | ⟨id, grant⟩
      · have written (x : RouteEntry) : (s.setRoute i x).route i = x := by
          rw [State.route_setRoute _ _ _ _ rising, if_pos rfl]
        rw [State.copyAttempt_dropped sends running grant, if_pos ⟨sends, running, grant⟩]
        refine Eq.trans ?_ (written { s.route i with drops := bump (s.route i).drops 1 })
        cases e <;> rfl
      · rw [State.copyAttempt_granted sends running grant, if_neg (by simp [State.dropsAt, grant])]
        cases e <;> rfl
    · rw [State.copyAttempt_stopped sends running, if_neg fun drops => running drops.2.1]
      cases e <;> rfl
  · rw [State.copyAttempt_unsent sends, if_neg fun drops => sends drops.1]

/-- What an egress becomes by a copy attempt does not depend on the other one, nor on the entry's counters. -/
theorem State.egress_copyAttempt_congr {j k : Nat} (entry : u.route i = { s.route i with hits := j, drops := k })
    (egress : u.egress e = s.egress e) (grant : ∀ cls, u.grant e cls = s.grant e cls) :
    (u.copyAttempt i n stamp p e).egress e = (s.copyAttempt i n stamp p e).egress e := by
  have cls : (u.route i).cls = (s.route i).cls := by rw [entry]
  have sending : (u.route i).sends e = (s.route i).sends e := by
    rw [entry]
    cases e <;> rfl
  have buffer (id : BufferId) :
      routedBuffer id (u.route i) e n stamp p = routedBuffer id (s.route i) e n stamp p := by
    rw [entry]
    cases e <;> rfl
  obtain ⟨unsent, stopped, dropped, granted⟩ := s.copyAttempt_spec i n stamp p e
  obtain ⟨unsent', stopped', dropped', granted'⟩ := u.copyAttempt_spec i n stamp p e
  rw [sending] at unsent' stopped' dropped' granted'
  rw [egress] at stopped' dropped' granted'
  rw [cls, grant] at dropped' granted'
  by_cases sends : (s.route i).sends e = true
  · by_cases running : (s.egress e).run = .running
    · cases found : s.grant e (s.route i).cls with
      | none => rw [(dropped sends running found).1, (dropped' sends running found).1]
      | some id => rw [(granted id sends running found).1, (granted' id sends running found).1, buffer]
    · rw [(stopped sends running).1, (stopped' sends running).1]
  · rw [unsent (Bool.eq_false_iff.mpr sends), unsent' (Bool.eq_false_iff.mpr sends), egress]

end

/-! ## Both copy attempts -/

/-- The copy attempts of an entry, for egress A and then for egress B (R110). -/
def State.copyBoth (s : State) (i : Nat) (n : SlotId) (stamp : Stamp) (p : Packet) : State :=
  (s.copyAttempt i n stamp p .a).copyAttempt i n stamp p .b

theorem State.routePacket_found {s : State} {n : SlotId} {p : Packet} {i : Nat} (carries : packetPid p ≠ 8191)
    (found : s.lookup n.val (packetPid p).toNat = some i) (stamp : Stamp) :
    s.routePacket n stamp p = (s.hit i).copyBoth i n stamp p := by
  refine (if_neg carries).trans ?_
  rw [found]
  rfl

theorem State.routePacket_unrouted {s : State} {n : SlotId} {p : Packet} (carries : packetPid p ≠ 8191)
    (missing : s.lookup n.val (packetPid p).toNat = none) (stamp : Stamp) :
    s.routePacket n stamp p = s.countSlot n fun c => { c with unrouted := bump c.unrouted 1 } := by
  refine (if_neg carries).trans ?_
  rw [missing]

theorem State.routePacket_null {s : State} {n : SlotId} {p : Packet} (null : packetPid p = 8191) (stamp : Stamp) :
    s.routePacket n stamp p = s.countSlot n fun c => { c with nulls := bump c.nulls 1 } := if_pos null

section

variable {s : State} {i : Nat} {n : SlotId} {stamp : Stamp} {p : Packet}

theorem State.grant_copyAttempt_a (cls : PacketClass) :
    (s.copyAttempt i n stamp p .a).grant .b cls = s.grant .b cls :=
  s.grant_copyAttempt i n stamp p .b cls _ rfl

theorem State.egress_copyAttempt_a : (s.copyAttempt i n stamp p .a).egress .b = s.egress .b :=
  s.copyAttempt_other i n stamp p .a .b (by decide)

theorem State.egress_copyBoth (rising : Rising s.routes) (e : Side) :
    (s.copyBoth i n stamp p).egress e = (s.copyAttempt i n stamp p e).egress e := by
  cases e with
  | a => exact State.copyAttempt_other _ i n stamp p .b .a (by decide)
  | b =>
    exact State.egress_copyAttempt_congr (State.route_copyAttempt rising i n stamp p .a) State.egress_copyAttempt_a
      fun cls => State.grant_copyAttempt_a cls

theorem State.dropsAt_copyAttempt_a (rising : Rising s.routes) :
    (s.copyAttempt i n stamp p .a).dropsAt i .b ↔ s.dropsAt i .b := by
  unfold State.dropsAt
  rw [State.route_copyAttempt rising, State.egress_copyAttempt_a, State.grant_copyAttempt_a]
  rfl

theorem State.dropsAfter_copyAttempt_a (rising : Rising s.routes) (d : Nat) :
    (s.copyAttempt i n stamp p .a).dropsAfter i .b d = s.dropsAfter i .b d :=
  if_congr (State.dropsAt_copyAttempt_a rising) rfl rfl

theorem State.route_copyBoth (rising : Rising s.routes) :
    (s.copyBoth i n stamp p).route i =
      { s.route i with drops := s.dropsAfter i .b (s.dropsAfter i .a (s.route i).drops) } := by
  have rising' := (s.copyAttempt_routes i n stamp p .a rising).1
  rw [State.copyBoth, State.route_copyAttempt rising', State.route_copyAttempt rising,
    State.dropsAfter_copyAttempt_a rising]

theorem State.route_copyBoth_other (rising : Rising s.routes) {j : Nat} (other : j ≠ i) :
    (s.copyBoth i n stamp p).route j = s.route j := by
  obtain ⟨rising', others, -⟩ := s.copyAttempt_routes i n stamp p .a rising
  obtain ⟨-, others', -⟩ := (s.copyAttempt i n stamp p .a).copyAttempt_routes i n stamp p .b rising'
  exact (others' j other).trans (others j other)

theorem State.events_copyBoth (rising : Rising s.routes) :
    (s.copyBoth i n stamp p).events =
      let first := if s.dropsAt i .a then latchEvent (.dropping .a) s.events else s.events
      if s.dropsAt i .b then latchEvent (.dropping .b) first else first := by
  rw [State.copyBoth, State.events_copyAttempt, State.events_copyAttempt]
  simp only [State.dropsAt_copyAttempt_a rising]

theorem State.copyBoth_frame :
    s.copyBoth i n stamp p = { s with
      routes := (s.copyBoth i n stamp p).routes, egressA := (s.copyBoth i n stamp p).egressA
      egressB := (s.copyBoth i n stamp p).egressB, events := (s.copyBoth i n stamp p).events } := by
  have first := s.copyAttempt_frame i n stamp p .a
  have second := (s.copyAttempt i n stamp p .a).copyAttempt_frame i n stamp p .b
  unfold State.copyBoth
  generalize (s.copyAttempt i n stamp p .a).copyAttempt i n stamp p .b = v at second
  rw [second, first]

end

/-! ## The flags of the drops (R112, R194) -/

/-- The event unit after the latches of the drops at egress A and at egress B. -/
def dropEvents (atA atB : Bool) (u : EventUnit) : EventUnit :=
  let first := if atA then latchEvent (.dropping .a) u else u
  if atB then latchEvent (.dropping .b) first else first

theorem State.events_copyBoth_eq {s : State} {i : Nat} {n : SlotId} {stamp : Stamp} {p : Packet}
    (rising : Rising s.routes) :
    (s.copyBoth i n stamp p).events = dropEvents (decide (s.dropsAt i .a)) (decide (s.dropsAt i .b)) s.events := by
  rw [State.events_copyBoth rising]
  simp only [dropEvents, decide_eq_true_eq]

theorem flagMask_of_getLsbD {latched : BitVec 45} {f : EventFlag} (set : latched.getLsbD (flagNumber f) = true) :
    latched &&& flagMask f ≠ 0 := by
  intro zero
  have bit := congrArg (BitVec.getLsbD · (flagNumber f)) zero
  simp [set, (getLsbD_flagMask f _).mpr rfl] at bit

/-- The latch of f under a condition. -/
theorem getLsbD_latchWhen (b : Bool) (f : EventFlag) (u : EventUnit) (k : Nat) :
    (if b then latchEvent f u else u).latched.getLsbD k = true ↔
      u.latched.getLsbD k = true ∨ b = true ∧ k = flagNumber f := by
  cases b with
  | true => simpa using getLsbD_latchEvent f u k
  | false => simp

theorem AlertsFollow.latchWhen (b : Bool) (f : EventFlag) (u : EventUnit) :
    AlertsFollow u (if b then latchEvent f u else u) := by
  cases b with
  | true => exact AlertsFollow.latch f u
  | false => exact AlertsFollow.refl u

theorem summary_latchWhen (b : Bool) (f : EventFlag) (u : EventUnit) (up : summary u = true) :
    summary (if b then latchEvent f u else u) = true := by
  cases b with
  | true => exact summary_latchEvent f u up
  | false => exact up

theorem getLsbD_dropEvents (atA atB : Bool) (u : EventUnit) (k : Nat) :
    (dropEvents atA atB u).latched.getLsbD k = true ↔
      u.latched.getLsbD k = true ∨ atA = true ∧ k = 30 ∨ atB = true ∧ k = 32 := by
  unfold dropEvents
  rw [getLsbD_latchWhen, getLsbD_latchWhen, or_assoc]
  rfl

theorem AlertsFollow.dropEvents (atA atB : Bool) (u : EventUnit) : AlertsFollow u (dropEvents atA atB u) :=
  (AlertsFollow.latchWhen atA _ u).trans (AlertsFollow.latchWhen atB _ _) (summary_latchWhen atA _ u)
    (summary_latchWhen atB _ _)

/-! ## A delivery -/

/-- The slot in TRACK with a clean packet delivered. -/
def Slot.deliveredOne (x : Slot) : Slot :=
  { x with
    uncRun := 0, wrongRun := 0
    counters := { x.counters with delivered := min (x.counters.delivered + 1) 4294967295 } }

theorem exec_clean_delivers {n : SlotId} {p : Packet} {s : State} (locked : s.power = .locked)
    (tracks : (s.slot n).acq = .track) (limit : 1 ≤ (s.slot n).tuning.burstLimit) (right : p[0] = 0x47)
    (first : CtxId) :
    exec (.packetCompletion n .clean p first) s =
      .next (((s.setSlot n (s.slot n).deliveredOne).routePacket n s.time.stc p).examineBoth n p first) := by
  have stays : ¬((s.slot n).runTrack .clean p).holds = true := by
    rw [Slot.runTrack_good rfl right, Slot.holds_iff]
    change ¬((s.slot n).tuning.burstLimit ≤ 0 ∨ 4 ≤ 0)
    omega
  rw [exec_packetCompletion_of_track locked tracks, outcomeOf_of_right right,
    State.completeTrack_delivers first stays (Slot.handsOn_good rfl right _), State.deliver, State.countSlot,
    State.slot_setSlot_same, State.setSlot_setSlot, Slot.runTrack_good rfl right]
  rfl

/-- A delivery that no entry takes changes the slot and the contexts alone. -/
theorem examineBoth_setSlot_frame (s : State) (n : SlotId) (x : Slot) (p : Packet) (first : CtxId) :
    let t := (s.setSlot n x).examineBoth n p first
    t.slot n = x ∧ t = { s with slots := s.slots.set n (t.slot n), capture0 := t.capture0, capture1 := t.capture1 } := by
  intro t
  obtain ⟨slots, -, -, -⟩ := (s.setSlot n x).examineBoth_keeps n p first
  have same : t.slot n = x := (slots n).trans (State.slot_setSlot_same s n x)
  refine ⟨same, ?_⟩
  rw [same]
  exact (s.setSlot n x).examineBoth_frame n p first

/-- What the routing of a delivery to the entry i leaves: the entry counted, each egress as after its own copy attempt, and
the flags of the drops. -/
theorem State.delivered_found {s : State} (rising : Rising s.routes) (i : Nat) (n : SlotId) (x : Slot) (stamp : Stamp)
    (p : Packet) :
    let t := ((s.setSlot n x).hit i).copyBoth i n stamp p
    t.slot n = x ∧
    t.route i = { s.route i with
      hits := min ((s.route i).hits + 1) 4294967295
      drops := s.dropsAfter i .b (s.dropsAfter i .a (s.route i).drops) } ∧
    (∀ j, j ≠ i → t.route j = s.route j) ∧
    (∀ e, t.egress e = (s.copyAttempt i n stamp p e).egress e) ∧
    t.events = dropEvents (decide (s.dropsAt i .a)) (decide (s.dropsAt i .b)) s.events ∧
    t = { s with
      slots := s.slots.set n (t.slot n), routes := t.routes, egressA := t.egressA, egressB := t.egressB
      events := t.events } := by
  intro t
  have rising' : Rising ((s.setSlot n x).hit i).routes := Memory.rising_write rising _ _
  have written : ((s.setSlot n x).hit i).route i = { s.route i with hits := min ((s.route i).hits + 1) 4294967295 } :=
    (State.route_setRoute (s.setSlot n x) i i _ rising).trans (if_pos rfl)
  have egresses (e : Side) : ((s.setSlot n x).hit i).egress e = s.egress e := by cases e <;> rfl
  have grants (e : Side) (cls : PacketClass) : ((s.setSlot n x).hit i).grant e cls = s.grant e cls := by
    cases e <;> rfl
  have drops (e : Side) : ((s.setSlot n x).hit i).dropsAt i e ↔ s.dropsAt i e := by
    unfold State.dropsAt
    rw [written, egresses, grants]
    cases e <;> rfl
  have dropsAfter (e : Side) (d : Nat) : ((s.setSlot n x).hit i).dropsAfter i e d = s.dropsAfter i e d :=
    if_congr (drops e) rfl rfl
  have frame : t = _ := State.copyBoth_frame
  have slot : t.slot n = x := by
    rw [frame]
    exact State.slot_setSlot_same s n x
  refine ⟨slot, ?route, fun j other => ?others, fun e => ?egress, ?events, ?frame⟩
  case route =>
    refine (State.route_copyBoth rising').trans ?_
    rw [written, dropsAfter, dropsAfter]
  case others =>
    refine (State.route_copyBoth_other rising' other).trans ?_
    exact (State.route_setRoute (s.setSlot n x) i j _ rising).trans (if_neg (Ne.symm other))
  case egress => exact (State.egress_copyBoth rising' e).trans (State.egress_copyAttempt_congr written (egresses e) (grants e))
  case events =>
    refine (State.events_copyBoth_eq rising').trans ?_
    simp only [drops]
    rfl
  case frame =>
    rw [slot]
    exact frame

/-- Settles O30: the contexts by what they would be granted before, each egress by its own copy attempt. -/
theorem deliveredPacketsAreRouted : Obligations.DeliveredPacketsAreRouted := by
  intro n p first s locked tables tracks limit right c delivered examined
  have rising : Rising s.routes := tables.1.1
  obtain ⟨atFirst, atOther⟩ :=
    (s.setSlot n (s.slot n).deliveredOne).capture_delivered n s.time.stc p first
  rw [State.capture_setSlot] at atFirst atOther
  have allocates (x : CaptureContext) :
      ((s.setSlot n (s.slot n).deliveredOne).setCapture first x).allocate .capture =
        (s.setCapture first x).allocate .capture := by cases first <;> rfl
  rw [allocates] at atOther
  refine ⟨_, exec_clean_delivers locked tracks limit right first, atFirst, atOther, fun null => ?null,
    fun carries missing => ?unrouted, fun i carries found => ?found⟩
  case null =>
    rw [State.routePacket_null null, State.countSlot, State.slot_setSlot_same, State.setSlot_setSlot]
    exact examineBoth_setSlot_frame s n _ p first
  case unrouted =>
    have missing' : (s.setSlot n (s.slot n).deliveredOne).lookup n.val (packetPid p).toNat = none := missing
    rw [State.routePacket_unrouted carries missing', State.countSlot, State.slot_setSlot_same, State.setSlot_setSlot]
    exact examineBoth_setSlot_frame s n _ p first
  case found =>
    have found' : (s.setSlot n (s.slot n).deliveredOne).lookup n.val (packetPid p).toNat = some i := found
    rw [State.routePacket_found carries found']
    obtain ⟨slot, route, others, egress, events, frame⟩ :=
      State.delivered_found rising i n (s.slot n).deliveredOne s.time.stc p
    obtain ⟨slotKept, egressKept, routeKept, eventsKept⟩ :=
      ((((s.setSlot n (s.slot n).deliveredOne).hit i).copyBoth i n s.time.stc p).examineBoth_keeps n p first)
    have examinedFrame :=
      (((s.setSlot n (s.slot n).deliveredOne).hit i).copyBoth i n s.time.stc p).examineBoth_frame n p first
    generalize (((s.setSlot n (s.slot n).deliveredOne).hit i).copyBoth i n s.time.stc p).examineBoth n p first = t at *
    generalize ((s.setSlot n (s.slot n).deliveredOne).hit i).copyBoth i n s.time.stc p = u at *
    have bit (k : Nat) : t.events.latched.getLsbD k = true ↔ s.events.latched.getLsbD k = true ∨
        s.dropsAt i .a ∧ k = 30 ∨ s.dropsAt i .b ∧ k = 32 := by
      rw [eventsKept, events, getLsbD_dropEvents, decide_eq_true_iff, decide_eq_true_iff]
    refine ⟨(slotKept n).trans slot, (routeKept i).trans route, fun j other => (routeKept j).trans (others j other),
      fun e unsent => ?unsent, fun e sends stopped => ?stopped, fun e sends running refused => ?dropped,
      fun e id sends running granted => ?granted, ⟨?flagA, ?flagB, fun k notA notB => ?flags, ?alerts⟩, ?frame⟩
    case unsent => rw [egressKept, egress, State.copyAttempt_unsent (Bool.eq_false_iff.mp unsent)]
    case stopped =>
      obtain ⟨-, discarded, -, -⟩ := s.copyAttempt_spec i n s.time.stc p e
      obtain ⟨counted, -⟩ := discarded sends stopped
      exact (egressKept e).trans ((egress e).trans counted)
    case dropped =>
      obtain ⟨-, -, drops, -⟩ := s.copyAttempt_spec i n s.time.stc p e
      obtain ⟨dropped, -⟩ := drops sends running refused
      rw [egressKept, egress, dropped]
      refine ⟨rfl, flagMask_of_getLsbD ((bit _).mpr (.inr ?_)), fun ordinary => ?_, fun essential => ?_⟩
      · cases e with
        | a => exact .inl ⟨⟨sends, running, refused⟩, rfl⟩
        | b => exact .inr ⟨⟨sends, running, refused⟩, rfl⟩
      · rw [ordinary]
        rfl
      · rw [essential]
        rfl
    case granted =>
      obtain ⟨-, -, -, joins⟩ := s.copyAttempt_spec i n s.time.stc p e
      obtain ⟨joined, -⟩ := joins id sends running granted
      exact (egressKept e).trans ((egress e).trans joined)
    case flagA => exact (bit 30).trans (by simp)
    case flagB => exact (bit 32).trans (by simp)
    case flags =>
      rw [Bool.eq_iff_iff, bit]
      simp [notA, notB]
    case alerts =>
      rw [eventsKept, events]
      exact AlertsFollow.dropEvents _ _ _
    case frame =>
      rw [slotKept, slot]
      rw [slot] at frame
      generalize t.capture0 = capture0, t.capture1 = capture1 at examinedFrame
      subst examinedFrame
      generalize u.routes = routes, u.egressA = egressA, u.egressB = egressB, u.events = events at frame
      subst frame
      rfl

end Sys2Proof.Machine
end

section
/-! SUPPORT. Packet Memory (R117 to R129): allocation, what a free leads to, BANK_ASSIGN and BANK_READ. -/

namespace Sys2Proof.Machine

open Sys2Proof

/-! ## Allocation (R119 to R121) -/

theorem State.lends_iff (s : State) (o : Owner) (b : Fin 8) :
    s.lends o b = true ↔ s.banks[b].owner = o ∧ s.banks[b].state = .active := by
  simp [State.lends]

theorem State.poolFree_eq_zero (s : State) (o : Owner) :
    s.poolFree o = 0 ↔ ∀ b, s.lends o b = true → s.bankFree b = 0 := by
  simp [State.poolFree, List.sum_eq_zero_iff, mem_allBanks]

theorem State.allocate_eq_none (s : State) (o : Owner) : s.allocate o = none ↔ s.poolFree o = 0 := by
  rw [State.poolFree_eq_zero]
  unfold State.allocate
  split
  · next b found =>
    obtain ⟨lends, free⟩ : s.lends o b = true ∧ 0 < s.bankFree b := by simpa using List.find?_some found
    have some := s.lowestFree_isSome b free
    refine ⟨fun none => ?_, fun full => absurd (full b lends) (by omega)⟩
    rw [none] at some
    cases some
  · next missing =>
    refine ⟨fun _ b lends => ?_, fun _ => rfl⟩
    have full := List.find?_eq_none.mp missing b (mem_allBanks b)
    simpa [lends] using full

theorem State.grant_of_classGrants {s : State} {e : Side} {cls : PacketClass}
    (grants : classGrants cls (s.poolFree (egressOwner e)) (s.egress e).reserve = true) :
    s.grant e cls = s.allocate (egressOwner e) := if_pos grants

theorem State.grant_refused {s : State} {e : Side} {cls : PacketClass}
    (refuses : ¬classGrants cls (s.poolFree (egressOwner e)) (s.egress e).reserve = true) : s.grant e cls = none :=
  if_neg refuses

/-! ## A free (R123, R126, R189) -/

theorem State.bankFree_eq_all (s : State) (b : Fin 8) : s.bankFree b = 128 ↔ s.bankHeld b = 0 := by
  unfold State.bankFree
  simp only [Config.bankBuffers]
  omega

theorem State.afterFree_one_frame (s : State) (freed : List BufferId) :
    s.afterFree freed = { s with
      banks := (s.afterFree freed).banks, capture0 := (s.afterFree freed).capture0
      capture1 := (s.afterFree freed).capture1 } := by
  obtain ⟨banks, capture0, capture1, frame⟩ := s.afterFree_frame freed
  rw [frame]

/-- Settles O32: the class rule by its two branches, the allocation and the free by what their laws say. -/
theorem buffersAreAllocatedAndFreed : Obligations.BuffersAreAllocatedAndFreed := by
  refine ⟨fun s e scarce => ?ordinaryRefused, fun s e empty => ?essentialRefused, fun s e room => ?ordinary,
    fun s e room => ?essential, fun s o id allocated => ?allocated, State.allocate_eq_none, fun s id => ?freed⟩
  case ordinaryRefused => exact State.grant_refused (by simpa [classGrants] using scarce)
  case essentialRefused => exact State.grant_refused (by simp [classGrants, empty])
  case ordinary => exact State.grant_of_classGrants (by simpa [classGrants] using room)
  case essential => exact State.grant_of_classGrants (by simpa [classGrants] using room)
  case allocated =>
    obtain ⟨lends, free, index, lowerBanks, lowerBuffers⟩ := State.allocate_spec allocated
    obtain ⟨owner, active⟩ := (s.lends_iff o id.bank).mp lends
    exact ⟨owner, active, free, index,
      fun b lower same lending => lowerBanks b lower ((s.lends_iff o b).mpr ⟨same, lending⟩), lowerBuffers⟩
  case freed =>
    obtain ⟨banks, -, captures⟩ := s.afterFree_spec [id]
    have drains (b : Fin 8) := s.drainTests_banks [id] b
    refine ⟨s.afterFree_one_frame [id], fun b other => ?others, fun active => ?active, fun o draining => ?draining,
      captures⟩
    case others =>
      obtain ⟨active, draining⟩ := drains b
      rw [banks]
      cases state : s.banks[b].state with
      | active => exact active state
      | draining o =>
        obtain ⟨-, stays⟩ := draining o state
        exact stays (.inl (by simpa using Ne.symm other))
    case active =>
      obtain ⟨kept, -⟩ := drains id.bank
      rw [banks]
      exact kept active
    case draining =>
      obtain ⟨-, drained⟩ := drains id.bank
      obtain ⟨passes, stays⟩ := drained o draining
      rw [banks]
      by_cases free : s.bankFree id.bank = 128
      · rw [if_pos free]
        exact passes ⟨id, by simp, rfl⟩ ((s.bankFree_eq_all _).mp free)
      · rw [if_neg free]
        exact stays (.inr (mt (s.bankFree_eq_all _).mpr free))

/-! ## BANK_ASSIGN and BANK_READ (R118, R119, R125, R129, R174) -/

/-- A request served at once, by the answer that it gets. -/
theorem served_answer {s : State} {l : Side} {tag : Byte} {r : Request} {c : Instr} {a : Answer} (h : s.Serves l)
    (row : exec c s = .next (s.requestRow l tag r)) (answer : s.applyRequest l r = a) :
    ∃ t, exec c s = .next t ∧ Replied s t l tag (requestCode r) a.status a.data ∧ SameButAgent a.state t := by
  subst answer
  exact served h row

theorem bankOf_of {bank : Byte} {b : Fin 8} (names : bank.toNat = b.val) : bankOf bank = some b := by
  have below : bank.toNat < 8 := names ▸ b.isLt
  rw [bankOf, dif_pos below]
  exact congrArg some (Fin.ext names)

theorem bankOf_none {bank : Byte} (above : 7 < bank.toNat) : bankOf bank = none :=
  dif_neg (by omega)

theorem ownerOf_none : ∀ owner : Byte, 3 < owner.toNat → ownerOf owner = none := by
  unfold ownerOf
  decide +kernel

section

variable {s : State} {b : Fin 8} {o : Owner}

theorem State.assignBank_draining {o' : Owner} (draining : s.banks[b].state = .draining o') :
    s.assignBank b o = (.busy, s) := by
  rw [State.assignBank, draining]

theorem State.assignBank_same (active : s.banks[b].state = .active) (same : s.banks[b].owner = o) :
    s.assignBank b o = (.ok, s) := by
  rw [State.assignBank, active]
  exact if_pos same

theorem State.assignBank_free (active : s.banks[b].state = .active) (other : s.banks[b].owner ≠ o)
    (free : s.bankFree b = 128) : s.assignBank b o = (.ok, (s.setBank b ⟨o, .active⟩).resumeCaptures) := by
  rw [State.assignBank, active]
  exact (if_neg other).trans (if_pos ((s.bankFree_eq_all b).mp free))

theorem State.assignBank_held (active : s.banks[b].state = .active) (other : s.banks[b].owner ≠ o)
    (held : s.bankFree b < 128) :
    s.assignBank b o = (.ok, s.setBank b ⟨s.banks[b].owner, .draining o⟩) := by
  rw [State.assignBank, active]
  exact (if_neg other).trans (if_neg fun none => held.ne ((s.bankFree_eq_all b).mpr none))

theorem State.bankAssign_eq {bank owner : Byte} (names : bank.toNat = b.val) (known : ownerOf owner = some o)
    {status : Status} {u : State} (assigned : s.assignBank b o = (status, u)) :
    s.bankAssign bank owner = u.refuse status (bank :: u.bankRecord b) := by
  rw [State.bankAssign, bankOf_of names, known]
  simp only [assigned]

end

theorem State.resumeCaptures_spec (s : State) :
    s.resumeCaptures = { s with
      capture0 := s.resumeCaptures.capture0, capture1 := s.resumeCaptures.capture1 } ∧
    ∀ c, s.resumeCaptures.capture c =
      if (s.capture c).state = .suspended ∧ 1 ≤ s.resumeCaptures.poolFree .capture
      then { s.capture c with state := .active } else s.capture c := by
  obtain ⟨-, -, captures⟩ := s.afterFree_spec []
  refine ⟨?_, captures⟩
  unfold State.resumeCaptures
  split <;> rfl

theorem sum_map_beq (bank : Fin 8) (banks : List (Fin 8)) :
    (banks.map fun b => if bank == b then 1 else 0).sum = banks.count bank := by
  induction banks with
  | nil => rfl
  | cons b banks ih =>
    rw [List.map_cons, List.sum_cons, ih, List.count_cons, add_comm]
    simp only [beq_iff_eq, eq_comm (a := bank)]

/-- The held buffers of the banks that satisfy a condition, bank by bank. -/
theorem sum_countP_banks (holds : Fin 8 → Bool) (ids : List BufferId) :
    ((allBanks.filter holds).map fun b => ids.countP fun id => id.bank == b).sum =
      ids.countP fun id => holds id.bank := by
  induction ids with
  | nil => simp
  | cons id ids ih =>
    have one : ((allBanks.filter holds).map fun b => if id.bank == b then 1 else 0).sum =
        if holds id.bank then 1 else 0 := by
      rw [sum_map_beq]
      by_cases lends : holds id.bank = true
      · rw [if_pos lends, List.count_filter lends]
        generalize id.bank = bank
        revert bank
        decide
      · rw [if_neg lends, List.count_eq_zero]
        exact fun mem => lends (List.mem_filter.mp mem).2
    simp only [List.countP_cons, List.sum_map_add, ih, one]

theorem allBanks_eq : allBanks = List.finRange 8 := by decide

/-- What capacity, free count and holding of a pool count (R119). -/
theorem State.pool_spec (s : State) (o : Owner) :
    let lent := (List.finRange 8).filter fun b => s.banks[b].owner == o && s.banks[b].state == .active
    s.poolCapacity o = 128 * lent.length ∧ s.poolFree o = (lent.map s.bankFree).sum ∧
      s.poolHolding o = s.heldBuffers.countP fun id => s.banks[id.bank].owner == o := by
  intro lent
  have banks : lent = allBanks.filter (s.lends o) := by
    rw [allBanks_eq]
    rfl
  rw [banks]
  exact ⟨congrArg (128 * ·) List.countP_eq_length_filter, rfl, sum_countP_banks (fun b => s.banks[b].owner == o) _⟩

theorem State.bankRecord_active {s : State} {b : Fin 8} (active : s.banks[b].state = .active) :
    s.bankRecord b = [BitVec.ofNat 8 (64 * ownerCode s.banks[b].owner), BitVec.ofNat 8 (s.bankFree b)] := by
  have pending : s.banks[b].pendingOwner = none := by rw [Bank.pendingOwner, active]
  rw [State.bankRecord, pending, beBytes_one, beBytes_one]
  cases s.banks[b].owner <;> rfl

theorem State.bankRecord_draining {s : State} {b : Fin 8} {o : Owner} (draining : s.banks[b].state = .draining o) :
    s.bankRecord b =
      [BitVec.ofNat 8 (64 * ownerCode s.banks[b].owner + 16 * ownerCode o + 3), BitVec.ofNat 8 (s.bankFree b)] := by
  have pending : s.banks[b].pendingOwner = some o := by rw [Bank.pendingOwner, draining]
  rw [State.bankRecord, pending, beBytes_one, beBytes_one]
  cases s.banks[b].owner <;> cases o <;> rfl

/-- Settles O36: the request by the bank's record in the order of R125, the records and the pools by their parts. -/
theorem banksChangeOwner : Obligations.BanksChangeOwner := by
  refine ⟨fun l tag s serves => ⟨fun bank owner b o names known => ?assign, fun bank owner b names unknown => ?unknown,
    fun bank owner above => ?noBank, ?read⟩, rfl,
    fun s => ⟨fun b => ⟨rfl, State.bankRecord_active, fun o => State.bankRecord_draining⟩, s.pool_spec⟩⟩
  case assign =>
    obtain ⟨t, ran, replied, same⟩ := served (c := .bankAssign l tag bank owner) serves rfl
    have answer {status : Status} {u : State} (assigned : s.assignBank b o = (status, u)) :
        s.applyRequest l (.bankAssign bank owner) = u.refuse status (bank :: u.bankRecord b) :=
      State.bankAssign_eq names known assigned
    have frees : (t.bankRecord b) = (s.applyRequest l (.bankAssign bank owner)).state.bankRecord b := by
      rw [same]
      rfl
    refine ⟨t, ran, fun o' draining => ?draining, fun active owned => ?owned, fun active other free => ?free,
      fun active other held => ?held⟩
    case draining =>
      rw [answer (State.assignBank_draining draining)] at replied same
      exact ⟨replied, same⟩
    case owned =>
      rw [answer (State.assignBank_same active owned)] at replied same
      exact ⟨replied, same⟩
    case free =>
      rw [answer (State.assignBank_free active other free)] at replied same frees
      obtain ⟨frame, captures⟩ := (s.setBank b ⟨o, .active⟩).resumeCaptures_spec
      rw [frees]
      refine ⟨replied, ?_, fun c => ?_⟩
      · unfold SameButAgent at same
        generalize (s.setBank b ⟨o, .active⟩).resumeCaptures = u at frame same
        generalize t.agent = agent at same
        generalize u.capture0 = capture0, u.capture1 = capture1 at frame
        subst frame same
        rfl
      · have taken : t.capture c = _ := (capture_of_sameButAgent same c).trans (captures c)
        have pool : t.poolFree .capture = (s.setBank b ⟨o, .active⟩).resumeCaptures.poolFree .capture := by
          rw [same]
          rfl
        rw [taken, pool]
        cases c <;> rfl
    case held =>
      rw [answer (State.assignBank_held active other held)] at replied same frees
      rw [frees]
      exact ⟨replied, same⟩
  case unknown =>
    have answer : s.applyRequest l (.bankAssign bank owner) = s.refuse .badArg (bank :: s.bankRecord b) := by
      change s.bankAssign bank owner = _
      rw [State.bankAssign, bankOf_of names, ownerOf_none owner unknown]
    exact served_answer serves rfl answer
  case noBank =>
    have answer : s.applyRequest l (.bankAssign bank owner) = (s.useFree 2).refuse .badArg (bank :: s.freeBytes 2) := by
      change s.bankAssign bank owner = _
      rw [State.bankAssign, bankOf_none above]
    obtain ⟨t, ran, replied, same⟩ := served_answer (c := .bankAssign l tag bank owner) (tag := tag) serves rfl answer
    refine ⟨t, s.freeBytes 2, ran, replied, ?_⟩
    have count : t.freeCount = s.freeCount + 2 := congrArg State.freeCount same
    rw [count]
    exact same
  case read =>
    obtain ⟨t, ran, replied, same⟩ := served (c := .bankRead l tag) serves rfl
    refine ⟨t, ran, same, ?_⟩
    have answer : (s.applyRequest l .bankRead).data = allBanks.flatMap s.bankRecord ++ s.poolBytes .egressA ++
      s.poolBytes .egressB ++ s.poolBytes .capture := rfl
    rw [answer] at replied
    simp only [allBanks, List.flatMap_cons, List.flatMap_nil, List.append_nil, State.poolBytes,
      List.append_assoc] at replied ⊢
    exact replied

end Sys2Proof.Machine
end

section
/-! SUPPORT. ROUTE_ADD (R101 to R105): the outcome of one description, case by case, and the reply of several. -/

namespace Sys2Proof.Machine

open Sys2Proof

/-! ## One description (R102 to R104) -/

/-- The lowest invalid entry. -/
theorem find_invalid {u : State} {i : Nat} (index : i < 256) (invalid : (u.route i).valid = false)
    (lowest : ∀ j, j < i → (u.route j).valid = true) : (routeIndices.find? fun i => !(u.route i).valid) = some i := by
  rw [routeIndices, List.find?_range_eq_some]
  exact ⟨by rw [invalid]; rfl, List.mem_range.mpr index, fun j below => by rw [lowest j below]; rfl⟩

theorem find_invalid_none {u : State} (full : ∀ i, i < 256 → (u.route i).valid = true) :
    (routeIndices.find? fun i => !(u.route i).valid) = none := by
  rw [List.find?_eq_none]
  intro i mem
  rw [full i (List.mem_range.mp mem)]
  decide

section

variable {u : State} {own : Option Nat} {e : RouteEntry} {d : RouteDesc} {i : Nat}

theorem State.placeRoute_meetsA (meets : u.collision own e .a = some i) :
    u.placeRoute own e = (u, ⟨.conflict, i, 1⟩) := by
  simp only [State.placeRoute, meets]

theorem State.placeRoute_meetsB (clear : u.collision own e .a = none) (meets : u.collision own e .b = some i) :
    u.placeRoute own e = (u, ⟨.conflict, i, 2⟩) := by
  simp only [State.placeRoute, clear, meets]

theorem State.placeRoute_own (clearA : u.collision (some i) e .a = none) (clearB : u.collision (some i) e .b = none) :
    u.placeRoute (some i) e = (u.setRoute i e, ⟨.ok, i, 1⟩) := by
  simp only [State.placeRoute, clearA, clearB]

theorem State.placeRoute_new (clearA : u.collision none e .a = none) (clearB : u.collision none e .b = none)
    (index : i < 256) (invalid : (u.route i).valid = false) (lowest : ∀ j, j < i → (u.route j).valid = true) :
    u.placeRoute none e = (u.setRoute i e, ⟨.ok, i, 0⟩) := by
  simp only [State.placeRoute, clearA, clearB, find_invalid index invalid lowest]

theorem State.placeRoute_full (clearA : u.collision none e .a = none) (clearB : u.collision none e .b = none)
    (full : ∀ i, i < 256 → (u.route i).valid = true) : u.placeRoute none e = (u, ⟨.full, 0, 0⟩) := by
  simp only [State.placeRoute, clearA, clearB, find_invalid_none full]

theorem State.addRoute_bad {k : Nat} (bad : firstFault 1 (descFaults d) = some k) :
    u.addRoute d = (u, ⟨.badArg, 0, BitVec.ofNat 8 k⟩) := by
  rw [State.addRoute, bad]

theorem State.addRoute_held (sound : firstFault 1 (descFaults d) = none)
    (held : u.lookup d.slot.toNat d.pid.toNat = some i) (keeps : d.replace = 0) :
    u.addRoute d = (u, ⟨.conflict, i, 0⟩) := by
  simp only [State.addRoute, sound, held, keeps]
  exact if_neg (by decide)

theorem State.addRoute_places (sound : firstFault 1 (descFaults d) = none)
    (replaces : (u.lookup d.slot.toNat d.pid.toNat).isSome = true → d.replace = 1) :
    u.addRoute d = u.placeRoute (u.lookup d.slot.toNat d.pid.toNat) (entryOf d) := by
  cases found : u.lookup d.slot.toNat d.pid.toNat with
  | none => simp only [State.addRoute, sound, found]
  | some i =>
    simp only [State.addRoute, sound, found]
    exact if_pos (replaces (by rw [found]; rfl))

end

/-- The outcome of one description past the checks of R102. -/
theorem State.addRoute_sound (u : State) {d : RouteDesc} (sound : firstFault 1 (descFaults d) = none) :
    let own := u.lookup d.slot.toNat d.pid.toNat
    let hitA := u.collision own (entryOf d) .a
    let hitB := u.collision own (entryOf d) .b
    (∀ i, own = some i → d.replace = 0 → u.addRoute d = (u, ⟨.conflict, i, 0⟩)) ∧
    ((own.isSome = true → d.replace = 1) →
      (∀ i, hitA = some i → u.addRoute d = (u, ⟨.conflict, i, 1⟩)) ∧
      (∀ i, hitA = none → hitB = some i → u.addRoute d = (u, ⟨.conflict, i, 2⟩)) ∧
      (∀ i, hitA = none → hitB = none → own = some i → u.addRoute d = (u.setRoute i (entryOf d), ⟨.ok, i, 1⟩)) ∧
      (∀ i, hitA = none → hitB = none → own = none → i < 256 → (u.route i).valid = false →
        (∀ j, j < i → (u.route j).valid = true) → u.addRoute d = (u.setRoute i (entryOf d), ⟨.ok, i, 0⟩)) ∧
      (hitA = none → hitB = none → own = none → (∀ i, i < 256 → (u.route i).valid = true) →
        u.addRoute d = (u, ⟨.full, 0, 0⟩))) := by
  intro own hitA hitB
  refine ⟨fun i held keeps => State.addRoute_held sound held keeps, fun replaces => ?_⟩
  have placed : u.addRoute d = u.placeRoute own (entryOf d) := State.addRoute_places sound replaces
  rw [placed]
  refine ⟨fun i meets => State.placeRoute_meetsA meets, fun i clear meets => State.placeRoute_meetsB clear meets,
    fun i clearA clearB held => ?own, fun i clearA clearB free index invalid lowest => ?new,
    fun clearA clearB free full => ?full⟩
  case own =>
    rw [held]
    exact State.placeRoute_own (held ▸ clearA) (held ▸ clearB)
  case new =>
    rw [free]
    exact State.placeRoute_new (free ▸ clearA) (free ▸ clearB) index invalid lowest
  case full =>
    rw [free]
    exact State.placeRoute_full (free ▸ clearA) (free ▸ clearB) full

/-! ## The entry written (R103, R104) -/

theorem classOf_cases : ∀ b : Byte, ¬1 < b.toNat →
    (classOf b).getD .ordinary = if b = 1 then .essential else .ordinary := by
  unfold classOf
  decide +kernel

theorem entryOf_fields {d : RouteDesc} (sound : ∀ k, ¬DescBad d k) :
    let e := entryOf d
    e.valid = true ∧ e.slot.val = d.slot.toNat ∧ e.pid.toNat = d.pid.toNat ∧
    e.toA = d.egressSet.getLsbD 0 ∧ e.toB = d.egressSet.getLsbD 1 ∧
    e.outA.map BitVec.toNat = (if d.outA = 0xFFFF then none else some d.outA.toNat) ∧
    e.outB.map BitVec.toNat = (if d.outB = 0xFFFF then none else some d.outB.toNat) ∧
    e.cls = (if d.cls = 1 then .essential else .ordinary) ∧ e.correct = (d.correct == 1) ∧
    e.renumber = (d.renumber == 1) ∧ e.hits = 0 ∧ e.drops = 0 := by
  intro e
  obtain ⟨pid, -⟩ := pid_entryOf sound
  obtain ⟨soundA, soundB⟩ : ¬(d.outA ≠ 0xFFFF ∧ 8190 < d.outA.toNat) ∧ ¬(d.outB ≠ 0xFFFF ∧ 8190 < d.outB.toNat) :=
    not_or.mp (sound 5)
  obtain ⟨outA, -⟩ := outPidOf_eq soundA
  obtain ⟨outB, -⟩ := outPidOf_eq soundB
  exact ⟨rfl, slot_entryOf sound, pid, rfl, rfl, outA, outB, classOf_cases d.cls (sound 6), rfl, rfl, rfl, rfl⟩

/-! ## The reply (R101, R105) -/

theorem worstStatus_eq_ok (rs : List RouteResult) : worstStatus rs = .ok ↔ ∀ x ∈ rs, x.status = .ok := by
  induction rs with
  | nil => simp [worstStatus]
  | cons r rs ih =>
    rw [worstStatus, List.forall_mem_cons]
    by_cases ok : r.status = .ok
    · rw [if_pos ok, ih]
      exact ⟨fun rest => ⟨ok, rest⟩, fun ⟨_, rest⟩ => rest⟩
    · rw [if_neg ok]
      exact ⟨fun ok' => absurd ok' ok, fun ⟨ok', _⟩ => absurd ok' ok⟩

theorem worstStatus_first {before after : List RouteResult} {x : RouteResult} (ok : ∀ y ∈ before, y.status = .ok)
    (bad : x.status ≠ .ok) : worstStatus (before ++ x :: after) = x.status := by
  induction before with
  | nil => exact if_neg bad
  | cons y before ih =>
    obtain ⟨head, rest⟩ := List.forall_mem_cons.mp ok
    exact (if_pos head).trans (ih rest)

theorem worstStatus_single (x : RouteResult) : worstStatus [x] = x.status := by
  by_cases ok : x.status = .ok
  · exact (if_pos ok).trans ok.symm
  · exact if_neg ok

theorem addResultBytes_eq : addResultBytes = fun r => [statusCode r.status, BitVec.ofNat 8 r.index, r.detail] := by
  funext r
  rw [addResultBytes, beBytes_one]
  rfl

/-- Settles O33: one description by its outcomes, several by the list of results. -/
theorem routeAddWritesOneEntry : Obligations.RouteAddWritesOneEntry := by
  refine ⟨fun l tag d d1 d2 s serves => ⟨fun count out => ?badCount, fun count low high => ?several, ⟨rfl, rfl, rfl⟩,
      ?one⟩,
    fun d => ⟨firstFault_desc_some d, firstFault_desc_none d, entryOf_fields⟩, fun r => ⟨rfl, rfl, rfl, rfl⟩,
    State.lookup_spec, State.collision_spec, fun u d => ⟨fun k bad first => ?bad, fun sound => ?sound⟩,
    fun u d ds => ⟨rfl, rfl⟩⟩
  case badCount =>
    have answer : s.applyRequest l (.routeAdd count d d1 d2) = s.refuse .badArg [] := if_neg (by omega)
    exact served_answer serves rfl answer
  case several =>
    intro r
    have answer : s.applyRequest l (.routeAdd count d d1 d2) = r.1.refuse (worstStatus r.2) (r.2.flatMap addResultBytes) :=
      if_pos ⟨low, high⟩
    rw [addResultBytes_eq] at answer
    obtain ⟨t, ran, replied, same⟩ := served_answer (c := .routeAdd l tag count d d1 d2) (tag := tag) serves rfl answer
    refine ⟨t, worstStatus r.2, ran, same, replied, worstStatus_eq_ok r.2, fun before x after split ok bad => ?_⟩
    rw [split]
    exact worstStatus_first ok bad
  case one =>
    obtain ⟨t, ran, replied, same⟩ := served (c := .routeAdd l tag 1 d d1 d2) serves rfl
    have outcome {u : State} {x : RouteResult} (added : s.addRoute d = (u, x)) :
        Replied s t l tag 0x30 x.status [statusCode x.status, BitVec.ofNat 8 x.index, x.detail] ∧
          t = { u with agent := t.agent } := by
      have answer : s.applyRequest l (.routeAdd 1 d d1 d2) =
          (s.addRoutes [d]).1.refuse (worstStatus (s.addRoutes [d]).2) ((s.addRoutes [d]).2.flatMap addResultBytes) := rfl
      have single : s.addRoutes [d] = (u, [x]) := by rw [State.addRoutes, added, State.addRoutes]
      rw [single, worstStatus_single, List.flatMap_cons, List.flatMap_nil, List.append_nil, addResultBytes_eq] at answer
      rw [answer] at replied same
      exact ⟨replied, same⟩
    refine ⟨t, ran, fun k bad => outcome (State.addRoute_bad bad), fun sound => ?_⟩
    obtain ⟨held, placed⟩ := s.addRoute_sound sound
    refine ⟨fun i found keeps => outcome (held i found keeps), fun own is replaces => ?_⟩
    subst is
    obtain ⟨meetsA, meetsB, owned, new, full⟩ := placed replaces
    exact ⟨fun i meets => outcome (meetsA i meets), fun i clear meets => outcome (meetsB i clear meets),
      fun clearA clearB => ⟨fun i found => outcome (owned i clearA clearB found),
        fun i free index invalid lowest => outcome (new i clearA clearB free index invalid lowest),
        fun free all => outcome (full clearA clearB free all)⟩⟩
  case bad => exact State.addRoute_bad ((firstFault_desc_some d k).mpr ⟨bad, first⟩)
  case sound => exact u.addRoute_sound ((firstFault_desc_none d).mpr sound)

end Sys2Proof.Machine
end

section
/-! SUPPORT. ROUTE_REMOVE, ROUTE_CLEAR and ROUTE_READ (R106 to R108, R174). -/

namespace Sys2Proof.Machine

open Sys2Proof

/-! ## ROUTE_CLEAR (R107) -/

/-- Settles O34, by what each index reads after the clear. -/
theorem routeClearInvalidatesEveryEntry : Obligations.RouteClearInvalidatesEveryEntry := by
  intro l tag s serves tables
  obtain ⟨t, ran, replied, same⟩ := served (c := .routeClear l tag) serves rfl
  have routes : t.routes = clearRoutes s.routes := by
    rw [same]
    rfl
  have reads (i : Nat) : t.route i = { s.route i with valid := false } := by
    rw [State.route, routes]
    exact read_clearRoutes tables.1.1 i
  refine ⟨t, ran, replied, reads, ?lowest, ?frame⟩
  case lowest =>
    rw [List.find?_range_eq_some, reads]
    exact ⟨rfl, by decide, fun j below => absurd below (Nat.not_lt_zero j)⟩
  case frame =>
    rw [routes]
    exact same

/-! ## ROUTE_REMOVE (R106) -/

theorem State.removeRoute_found {u : State} {k : RouteKey} {i : Nat}
    (found : u.lookup k.slot.toNat k.pid.toNat = some i) :
    u.removeRoute k = (u.setRoute i { u.route i with valid := false }, ⟨.ok, i, 0⟩) := by
  rw [State.removeRoute, found]
  rfl

theorem State.removeRoute_missing {u : State} {k : RouteKey} (missing : u.lookup k.slot.toNat k.pid.toNat = none) :
    u.removeRoute k = (u, ⟨.notFound, 0, 0⟩) := by
  rw [State.removeRoute, missing]

theorem State.removeRoutes_state (ks : List RouteKey) (u : State) :
    (u.removeRoutes ks).1 = ks.foldl (fun u k => (u.removeRoute k).1) u := by
  induction ks generalizing u with
  | nil => rfl
  | cons k ks ih => exact ih _

theorem removeResultBytes_eq : removeResultBytes = fun r => [statusCode r.status, BitVec.ofNat 8 r.index] := by
  funext r
  rw [removeResultBytes, beBytes_one]
  rfl

/-! ## Entry records (R174) -/

theorem entryFlags_eq : ∀ valid essential correct renumber toB toA : Bool,
    BitVec.ofNat 8 (packBits [(1, valid.toNat), (1, essential.toNat), (1, correct.toNat), (1, renumber.toNat), (2, 0),
      (1, toB.toNat), (1, toA.toNat)]) =
    (if valid then 0x80 else 0) ||| (if essential then 0x40 else 0) ||| (if correct then 0x20 else 0) |||
      (if renumber then 0x10 else 0) ||| (if toB then 2 else 0) ||| (if toA then 1 else 0) := by
  decide

theorem keyField_eq (slot : SlotId) (pid : Pid) :
    packBits [(3, slot.val), (13, pid.toNat)] = 8192 * slot.val + pid.toNat := by
  have slots := slot.isLt
  have pids := pid.isLt
  simp only [packBits, List.foldl_cons, List.foldl_nil]
  omega

theorem pidBytes_eq (p : Option Pid) : pidBytes p = beBytes 2 ((p.map BitVec.toNat).getD 65535) := by
  cases p with
  | none => rfl
  | some q =>
    have below := q.isLt
    rw [pidBytes, bytes16_eq]
    simp only [Option.map_some, Option.getD_some, BitVec.toNat_setWidth]
    rw [Nat.mod_eq_of_lt (by omega)]

theorem entryBytes_eq (i : Nat) (r : RouteEntry) :
    entryBytes i r = beBytes 1 i ++
      [(if r.valid then 0x80 else 0) ||| (if r.cls = .essential then 0x40 else 0) ||| (if r.correct then 0x20 else 0) |||
        (if r.renumber then 0x10 else 0) ||| (if r.toB then 2 else 0) ||| (if r.toA then 1 else 0)] ++
      beBytes 2 (8192 * r.slot.val + r.pid.toNat) ++ beBytes 2 ((r.outA.map BitVec.toNat).getD 65535) ++
      beBytes 2 ((r.outB.map BitVec.toNat).getD 65535) ++ beBytes 4 r.hits ++ beBytes 4 r.drops ++ [0] := by
  rw [entryBytes, beBytes_one (packBits _), entryFlags_eq, keyField_eq, pidBytes_eq, pidBytes_eq]
  simp only [beq_iff_eq]

/-- The records of the entries that ROUTE_READ returns. -/
def State.readBytes (s : State) (indices : List Nat) : List Byte :=
  beBytes 1 indices.length ++ indices.flatMap fun i => entryBytes i (s.route i)

theorem State.readBytes_one (s : State) (i : Nat) : s.readBytes [i] = [1] ++ entryBytes i (s.route i) := by
  simp [State.readBytes, beBytes_one]

theorem State.readBytes_two (s : State) (i j : Nat) :
    s.readBytes [i, j] = [2] ++ entryBytes i (s.route i) ++ entryBytes j (s.route j) := by
  simp [State.readBytes, beBytes_one]

theorem State.readBytes_three (s : State) (i j k : Nat) :
    s.readBytes [i, j, k] =
      [3] ++ entryBytes i (s.route i) ++ entryBytes j (s.route j) ++ entryBytes k (s.route k) := by
  simp [State.readBytes, beBytes_one]

theorem readIndices_low {start : Byte} (low : start.toNat ≤ 253) :
    readIndices start = [start.toNat, start.toNat + 1, start.toNat + 2] := by
  have first : start.toNat < 256 := by omega
  have second : start.toNat + 1 < 256 := by omega
  have third : start.toNat + 2 < 256 := by omega
  simp [readIndices, List.range_succ, Config.routeEntries, first, second, third]

theorem readIndices_254 {start : Byte} (is : start.toNat = 254) : readIndices start = [254, 255] := by
  rw [readIndices, is]
  decide

theorem readIndices_255 {start : Byte} (is : start.toNat = 255) : readIndices start = [255] := by
  rw [readIndices, is]
  decide

/-- Settles O35: one key by its lookup, several by the list of results, the read by its start index. -/
theorem routeRemoveAndRead : Obligations.RouteRemoveAndRead := by
  refine ⟨fun l tag s serves => ⟨fun count keys out => ?badCount, fun count keys low high => ?several,
      fun keys => ?one, fun start => ?read⟩, entryBytes_eq,
    fun u k => ⟨fun i found => State.removeRoute_found found, fun missing => State.removeRoute_missing missing⟩,
    fun u k ks => ⟨rfl, rfl⟩⟩
  case badCount =>
    have answer : s.applyRequest l (.routeRemove count keys) = s.refuse .badArg [] := if_neg (by omega)
    exact served_answer serves rfl answer
  case several =>
    intro r
    have answer : s.applyRequest l (.routeRemove count keys) =
        r.1.refuse (worstStatus r.2) (r.2.flatMap removeResultBytes) := if_pos ⟨low, high⟩
    rw [removeResultBytes_eq] at answer
    obtain ⟨t, ran, replied, same⟩ := served_answer (c := .routeRemove l tag count keys) (tag := tag) serves rfl answer
    obtain ⟨allRemoved, someMissing⟩ := s.removeRoutes_status (keys.toList.take count.toNat)
    exact ⟨t, worstStatus r.2, ran, same, replied, allRemoved, someMissing, State.removeRoutes_state _ s⟩
  case one =>
    obtain ⟨t, ran, replied, same⟩ := served (c := .routeRemove l tag 1 keys) serves rfl
    have outcome {u : State} {x : RouteResult} (removed : s.removeRoute keys[0] = (u, x)) :
        Replied s t l tag 0x31 x.status [statusCode x.status, BitVec.ofNat 8 x.index] ∧
          t = { u with agent := t.agent } := by
      have first : keys.toList.take (1 : Byte).toNat = [keys[0]] := by
        have long : 0 < keys.toList.length := by simp
        exact (List.take_succ_eq_append_getElem long).trans (by simp)
      have answer : s.applyRequest l (.routeRemove 1 keys) =
          (s.removeRoutes (keys.toList.take (1 : Byte).toNat)).1.refuse
            (worstStatus (s.removeRoutes (keys.toList.take (1 : Byte).toNat)).2)
            ((s.removeRoutes (keys.toList.take (1 : Byte).toNat)).2.flatMap removeResultBytes) := rfl
      have single : s.removeRoutes [keys[0]] = (u, [x]) := by rw [State.removeRoutes, removed, State.removeRoutes]
      rw [first, single, worstStatus_single, List.flatMap_cons, List.flatMap_nil, List.append_nil,
        removeResultBytes_eq] at answer
      rw [answer] at replied same
      exact ⟨replied, same⟩
    exact ⟨t, ran, fun i found => outcome (State.removeRoute_found found),
      fun missing => outcome (State.removeRoute_missing missing)⟩
  case read =>
    obtain ⟨t, ran, replied, same⟩ := served (c := .routeRead l tag start) serves rfl
    have reads {indices : List Nat} (are : readIndices start = indices) :
        Replied s t l tag 0x33 .ok (s.readBytes indices) := by
      rw [← are]
      exact replied
    refine ⟨t, ran, same, fun low => ?_, fun is => ?_, fun is => ?_⟩
    · have all := reads (readIndices_low low)
      rwa [State.readBytes_three] at all
    · have all := reads (readIndices_254 is)
      rwa [State.readBytes_two] at all
    · have all := reads (readIndices_255 is)
      rwa [State.readBytes_one] at all

end Sys2Proof.Machine
end

section
/-! SUPPORT. Egress settings, START and STOP (R137 to R143). -/

namespace Sys2Proof.Machine

open Sys2Proof

theorem sideOf_none : ∀ b : Byte, 1 < b.toNat → sideOf b = none := by
  unfold sideOf
  decide +kernel

theorem sideOf_le : ∀ (b : Byte) (e : Side), sideOf b = some e → b.toNat ≤ 1 := by
  unfold sideOf
  decide +kernel

/-! ## EGRESS_SET (R137 to R139) -/

theorem rateInRange_iff (r : BitVec 32) :
    rateInRange r = true ↔ r.toNat = 0 ∨ 2000000 ≤ r.toNat ∧ r.toNat ≤ 72000000 := by
  rw [rateInRange, decide_eq_true_iff, BitVec.toNat_eq]
  rfl

theorem ageInRange_iff (a : BitVec 16) : ageInRange a = true ↔ 1 ≤ a.toNat ∧ a.toNat ≤ 1000 := decide_eq_true_iff

theorem schedOf_isNone : ∀ b : Byte, (schedOf b).isNone = true ↔ 1 < b.toNat := by
  unfold schedOf
  decide +kernel

theorem schedOf_getD : ∀ (b : Byte) (other : SchedPolicy), ¬1 < b.toNat →
    (schedOf b).getD other = if b = 0 then .rotating else .fixed := by
  intro b other
  revert b
  cases other <;> (unfold schedOf; decide +kernel)

/-- Setting 1 of R138 fails. -/
abbrev rateFails (p : EgressSetParams) : Prop :=
  p.present.getLsbD 0 = true ∧ ¬(p.rate.toNat = 0 ∨ 2000000 ≤ p.rate.toNat ∧ p.rate.toNat ≤ 72000000)

/-- Setting 2 of R138 fails. -/
abbrev policyFails (p : EgressSetParams) : Prop := p.present.getLsbD 1 = true ∧ 1 < p.policy.toNat

/-- Setting 4 of R138 fails. -/
abbrev ageFails (p : EgressSetParams) : Prop :=
  p.present.getLsbD 3 = true ∧ ¬(1 ≤ p.ageLimit.toNat ∧ p.ageLimit.toNat ≤ 1000)

theorem badSetting_eq (p : EgressSetParams) :
    badSetting p = if rateFails p then some 1 else if policyFails p then some 2 else if ageFails p then some 4 else none := by
  have rate : (settingHas p 1 && !rateInRange p.rate) = true ↔ rateFails p := by
    rw [Bool.and_eq_true, Bool.not_eq_true', ← Bool.not_eq_true, rateInRange_iff]
    rfl
  have policy : (settingHas p 2 && (schedOf p.policy).isNone) = true ↔ policyFails p := by
    rw [Bool.and_eq_true, schedOf_isNone]
    rfl
  have age : (settingHas p 4 && !ageInRange p.ageLimit) = true ↔ ageFails p := by
    rw [Bool.and_eq_true, Bool.not_eq_true', ← Bool.not_eq_true, ageInRange_iff]
    rfl
  rw [badSetting, if_congr rate rfl (if_congr policy rfl (if_congr age rfl rfl))]

theorem Egress.rateBusy_iff (p : EgressSetParams) (x : Egress) :
    x.rateBusy p = true ↔ p.present.getLsbD 0 = true ∧ p.rate.toNat ≠ x.rate ∧ x.run ≠ .stopped := by
  rw [Egress.rateBusy, Bool.and_eq_true, Bool.and_eq_true, decide_eq_true_iff, bne_iff_ne, and_assoc]
  rfl

/-- The egress with the present settings of a sound request written. -/
theorem Egress.configure_eq {p : EgressSetParams} (sound : ¬policyFails p) (x : Egress) :
    x.configure p = { x with
      rate := if p.present.getLsbD 0 then p.rate.toNat else x.rate
      policy := if p.present.getLsbD 1 then (if p.policy = 0 then .rotating else .fixed) else x.policy
      reserve := if p.present.getLsbD 2 then min 1024 p.reserve.toNat else x.reserve
      ageLimit := if p.present.getLsbD 3 then p.ageLimit.toNat else x.ageLimit
      offset := if p.present.getLsbD 4 then p.offset.toInt else x.offset } := by
  have policy : (if settingHas p 2 then (schedOf p.policy).getD x.policy else x.policy) =
      if p.present.getLsbD 1 then (if p.policy = 0 then .rotating else .fixed) else x.policy := by
    by_cases present : p.present.getLsbD 1 = true
    · have range : ¬1 < p.policy.toNat := fun above => sound ⟨present, above⟩
      rw [if_pos present, ← schedOf_getD p.policy x.policy range]
      exact if_pos present
    · rw [if_neg present]
      exact if_neg present
  rw [Egress.configure, policy]
  rfl

section

variable {s : State} {p : EgressSetParams} {e : Side}

theorem State.egressSet_noSide (none : 1 < p.egress.toNat ∨ 32 ≤ p.present.toNat) :
    s.egressSet p = s.refuse .badArg [0] := by
  unfold State.egressSet
  split
  · rfl
  · next e named =>
    have low := sideOf_le _ _ named
    exact if_pos (none.resolve_left (by omega))

theorem State.egressSet_bad (named : sideOf p.egress = some e) (known : p.present.toNat < 32) {k : Byte}
    (bad : badSetting p = some k) : s.egressSet p = s.refuse .badArg [k] := by
  simp only [State.egressSet, named, bad]
  exact if_neg (by omega)

theorem State.egressSet_busy (named : sideOf p.egress = some e) (known : p.present.toNat < 32)
    (sound : badSetting p = none) (busy : (s.egress e).rateBusy p = true) :
    s.egressSet p = s.refuse .busy [1] := by
  simp only [State.egressSet, named, sound, if_pos busy]
  exact if_neg (by omega)

theorem State.egressSet_done (named : sideOf p.egress = some e) (known : p.present.toNat < 32)
    (sound : badSetting p = none) (free : ¬(s.egress e).rateBusy p = true) :
    s.egressSet p = (s.setEgress e ((s.egress e).configure p)).accept
      (((s.egress e).configure p).settings ++ [egressStateCode ((s.egress e).configure p).run] ++
        flagByte (reserveClamped p)) := by
  simp only [State.egressSet, named, sound, if_neg free]
  exact if_neg (by omega)

end

/-- Settles O37, by the first check that fails. -/
theorem egressSetWritesPresentSettings : Obligations.EgressSetWritesPresentSettings := by
  intro l tag p s serves
  obtain ⟨t, ran, replied, same⟩ := served (c := .egressSet l tag p) serves rfl
  have outcome {a : Answer} (answer : s.egressSet p = a) :
      Replied s t l tag 0x50 a.status a.data ∧ t = { a.state with agent := t.agent } := by
    have applied : s.applyRequest l (.egressSet p) = a := answer
    rw [applied] at replied same
    exact ⟨replied, same⟩
  refine ⟨t, ran, fun none => outcome (State.egressSet_noSide none), fun e named known => ?_⟩
  have bad := badSetting_eq p
  refine ⟨fun rate => ?rate, fun rate policy => ?policy, fun rate policy age => ?age, fun rate policy age busy => ?busy,
    fun rate policy age free => ?done⟩
  case rate => exact outcome (State.egressSet_bad named known (bad.trans (if_pos rate)))
  case policy =>
    rw [if_neg rate] at bad
    exact outcome (State.egressSet_bad named known (bad.trans (if_pos policy)))
  case age =>
    rw [if_neg rate, if_neg policy] at bad
    exact outcome (State.egressSet_bad named known (bad.trans (if_pos age)))
  case busy =>
    rw [if_neg rate, if_neg policy, if_neg age] at bad
    exact outcome (State.egressSet_busy named known bad ((Egress.rateBusy_iff p _).mpr busy))
  case done =>
    rw [if_neg rate, if_neg policy, if_neg age] at bad
    have done := State.egressSet_done named known bad (mt (Egress.rateBusy_iff p _).mp free)
    rw [Egress.configure_eq policy] at done
    exact outcome done

/-! ## START and STOP (R140 to R143) -/

section

variable {s : State} {e : Side}

theorem State.startEgress_starts (stopped : (s.egress e).run = .stopped) (rate : (s.egress e).rate ≠ 0)
    (banks : s.poolCapacity (egressOwner e) ≠ 0) :
    s.startEgress e = (.ok, s.setEgress e (s.egress e).begin) := by
  rw [State.startEgress, stopped]
  exact if_neg (not_or.mpr ⟨rate, banks⟩)

theorem State.startEgress_unready (stopped : (s.egress e).run = .stopped)
    (unready : (s.egress e).rate = 0 ∨ s.poolCapacity (egressOwner e) = 0) : s.startEgress e = (.badState, s) := by
  rw [State.startEgress, stopped]
  exact if_pos unready

theorem State.startEgress_running (running : (s.egress e).run = .running) : s.startEgress e = (.badState, s) := by
  rw [State.startEgress, running]

theorem State.startEgress_stopping (stopping : (s.egress e).run = .stopping) : s.startEgress e = (.busy, s) := by
  rw [State.startEgress, stopping]

theorem State.egressControl_start {egress : Byte} (named : sideOf egress = some e) {status : Status} {u : State}
    (started : s.startEgress e = (status, u)) :
    s.egressControl egress actionStart = u.refuse status [egressStateCode (u.egress e).run] := by
  simp only [State.egressControl, named, started]
  exact if_pos trivial

theorem State.egressControl_stop {egress : Byte} (named : sideOf egress = some e) :
    s.egressControl egress actionStop =
      (s.stopEgress e).accept [egressStateCode ((s.stopEgress e).egress e).run] := by
  simp only [State.egressControl, named]
  exact (if_neg (by decide)).trans (if_pos trivial)

theorem State.egressControl_noSide {egress : Byte} (none : 1 < egress.toNat) (action : Byte) :
    s.egressControl egress action = (s.useFree 1).refuse .badArg (s.freeBytes 1) := by
  rw [State.egressControl, sideOf_none egress none]

end

/-- A request for an egress that does not exist is refused with a free value as its data. -/
theorem egressControl_refused {l : Side} {tag egress action : Byte} {s : State} {c : Instr} (serves : s.Serves l)
    (row : exec c s = .next (s.requestRow l tag (.egressControl egress action))) (none : 1 < egress.toNat) :
    ∃ t data, exec c s = .next t ∧ Replied s t l tag 0x51 .badArg data ∧
      t = { s with agent := t.agent, freeCount := t.freeCount } := by
  obtain ⟨t, ran, replied, same⟩ := served_answer serves row (State.egressControl_noSide none action)
  refine ⟨t, s.freeBytes 1, ran, replied, ?_⟩
  have count : t.freeCount = s.freeCount + 1 := congrArg State.freeCount same
  rw [count]
  exact same

/-- A stopped egress keeps its pointer, its Continuity Table, its counters and its settings. -/
theorem Egress.stop_keeps (x : Egress) :
    x.stop.pointer = x.pointer ∧ x.stop.continuity = x.continuity ∧ x.stop.counters = x.counters ∧
    x.stop.rate = x.rate ∧ x.stop.policy = x.policy ∧ x.stop.reserve = x.reserve ∧ x.stop.ageLimit = x.ageLimit ∧
    x.stop.offset = x.offset := by
  unfold Egress.stop Egress.endStream
  split
  · split <;> exact ⟨rfl, rfl, rfl, rfl, rfl, rfl, rfl, rfl⟩
  · split <;> exact ⟨rfl, rfl, rfl, rfl, rfl, rfl, rfl, rfl⟩

/-- What a free leaves of a bank, by the free count after it (R123, R126). -/
theorem State.bank_afterFree (u : State) (freed : List BufferId) (b : Fin 8) :
    let t := u.afterFree freed
    (u.banks[b].state = .active → t.banks[b] = u.banks[b]) ∧
    ∀ o, u.banks[b].state = .draining o →
      ((∃ id ∈ freed, id.bank = b) → t.bankFree b = 128 → t.banks[b] = ⟨o, .active⟩) ∧
      (((∀ id ∈ freed, id.bank ≠ b) ∨ t.bankFree b ≠ 128) → t.banks[b] = u.banks[b]) := by
  intro t
  obtain ⟨banks, held, -⟩ := u.afterFree_spec freed
  obtain ⟨active, draining⟩ := u.drainTests_banks freed b
  have free : t.bankFree b = 128 ↔ u.bankHeld b = 0 := by rw [State.bankFree_eq_all, held]
  rw [← banks] at active draining
  refine ⟨active, fun o drains => ?_⟩
  obtain ⟨passes, stays⟩ := draining o drains
  exact ⟨fun touched all => passes touched (free.mp all),
    fun kept => stays (kept.imp_right fun some => mt free.mpr some)⟩

theorem State.stopEgress_running {s : State} {e : Side} (running : (s.egress e).run = .running) :
    s.stopEgress e = (s.setEgress e (s.egress e).stop).afterFree (s.egress e).buffers := if_pos running

theorem State.stopEgress_other {s : State} {e : Side} (other : (s.egress e).run ≠ .running) : s.stopEgress e = s :=
  if_neg other

/-- What a STOP of a RUNNING egress leaves, the Agent aside. -/
theorem State.stopEgress_spec {s t : State} {e : Side} (running : (s.egress e).run = .running)
    (same : SameButAgent (s.stopEgress e) t) :
    t.egress e = (s.egress e).stop ∧
    (∀ b : Fin 8, (s.banks[b].state = .active → t.banks[b] = s.banks[b]) ∧
      ∀ o, s.banks[b].state = .draining o →
        ((∃ id ∈ (s.egress e).buffers, id.bank = b) → t.bankFree b = 128 → t.banks[b] = ⟨o, .active⟩) ∧
        (((∀ id ∈ (s.egress e).buffers, id.bank ≠ b) ∨ t.bankFree b ≠ 128) → t.banks[b] = s.banks[b])) ∧
    (∀ c, t.capture c =
      if (s.capture c).state = .suspended ∧ 1 ≤ t.poolFree .capture then { s.capture c with state := .active }
      else s.capture c) ∧
    t = { s.setEgress e (s.egress e).stop with
      banks := t.banks, capture0 := t.capture0, capture1 := t.capture1, agent := t.agent } := by
  rw [State.stopEgress_running running] at same
  generalize (s.egress e).buffers = freed at same
  generalize stopped : (s.egress e).stop = y at same
  have banks : (s.setEgress e y).banks = s.banks := by cases e <;> rfl
  have captures (c : CtxId) : (s.setEgress e y).capture c = s.capture c := State.capture_setEgress s e y c
  have egress : (s.setEgress e y).egress e = y := State.egress_setEgress_same s e y
  generalize s.setEgress e y = u at same banks captures egress
  have bank (b : Fin 8) := u.bank_afterFree freed b
  obtain ⟨-, -, capture⟩ := u.afterFree_spec freed
  have frame := u.afterFree_one_frame freed
  have egress' : (u.afterFree freed).egress e = y := (State.egress_afterFree u freed e).trans egress
  unfold SameButAgent at same
  generalize u.afterFree freed = v at same bank capture frame egress'
  generalize t.agent = agent at same
  subst same
  refine ⟨?egress, fun b => ?bank, fun c => ?capture, ?frame⟩
  case egress =>
    rw [← egress']
    cases e <;> rfl
  case bank =>
    rw [← banks]
    exact bank b
  case capture =>
    rw [← captures]
    refine Eq.trans ?_ (capture c)
    cases c <;> rfl
  case frame =>
    generalize v.banks = vBanks, v.capture0 = vCapture0, v.capture1 = vCapture1 at frame
    subst frame
    rfl

/-- Settles O38: START by the egress state, STOP by what it leaves of the egress and by what its frees lead to. -/
theorem startAndStopTheStream : Obligations.StartAndStopTheStream := by
  refine ⟨fun l tag egress s serves => ⟨fun e named => ?start, egressControl_refused serves rfl⟩,
    fun l tag egress s serves => egressControl_refused serves rfl, fun l tag egress e s serves named => ?stop⟩
  case start =>
    obtain ⟨t, ran, replied, same⟩ := served (c := .start l tag egress) serves rfl
    have outcome {status : Status} {u : State} (started : s.startEgress e = (status, u)) :
        Replied s t l tag 0x51 status [egressStateCode (u.egress e).run] ∧ t = { u with agent := t.agent } := by
      have answer : s.applyRequest l (.egressControl egress actionStart) = _ :=
        State.egressControl_start named started
      rw [answer] at replied same
      exact ⟨replied, same⟩
    refine ⟨t, ran, fun stopped rate banks => ?starts, fun stopped unready => ?unready, fun running => ?running,
      fun stopping => ?stopping⟩
    case starts =>
      have started := outcome (State.startEgress_starts stopped rate banks)
      rw [State.egress_setEgress_same] at started
      exact started
    case unready =>
      have refused := outcome (State.startEgress_unready stopped unready)
      rw [stopped] at refused
      exact refused
    case running =>
      have refused := outcome (State.startEgress_running running)
      rw [running] at refused
      exact refused
    case stopping =>
      have refused := outcome (State.startEgress_stopping stopping)
      rw [stopping] at refused
      exact refused
  case stop =>
    obtain ⟨t, ran, replied, same⟩ := served (c := .stop l tag egress) serves rfl
    have answer : s.applyRequest l (.egressControl egress actionStop) = _ := State.egressControl_stop named
    rw [answer] at replied same
    refine ⟨t, ran, fun other => ?other, fun running => ?running⟩
    case other =>
      rw [State.stopEgress_other other] at replied same
      exact ⟨replied, same⟩
    case running =>
      intro x y
      obtain ⟨pointer, continuity, counters, rate, policy, reserve, age, offset⟩ := (s.egress e).stop_keeps
      obtain ⟨stream, acc, due, queues, run⟩ := (s.egress e).stop_spec
      obtain ⟨stopped, banks, captures, frame⟩ := State.stopEgress_spec running same
      obtain ⟨stopped', -⟩ := State.stopEgress_spec running (t := s.stopEgress e) rfl
      rw [stopped', run] at replied
      have is : y = (s.egress e).stop := stopped
      clear_value y
      subst is
      obtain ⟨filled, waits, marked, alone⟩ := stream
      exact ⟨replied, run, due, queues, acc, pointer, continuity, counters, rate, policy, reserve, age, offset,
        filled, waits, marked, alone, banks, captures, frame⟩

end Sys2Proof.Machine
end

section
/-! SUPPORT. EGRESS_READ (R156, R174): its pages, and the nibbles of the Continuity Table. -/

namespace Sys2Proof.Machine

open Sys2Proof

/-! ## The pages -/

section

variable {s : State} {e : Side} {egress page : Byte} {pid : BitVec 16}

theorem State.egressRead_noSide (none : sideOf egress = none) :
    s.egressRead egress page pid = s.refuse .badArg [egress, page] := by
  rw [State.egressRead, none]

theorem State.egressRead_settings (named : sideOf egress = some e) (is : page = 0) :
    s.egressRead egress page pid =
      (if (s.egress e).assembly.isEnd then s.useFree 1 else s).accept
        ([egress, page] ++ s.settingsPage (s.egress e)) := by
  simp only [State.egressRead, named, if_pos is]

theorem State.egressRead_queues (named : sideOf egress = some e) (is : page = 1) :
    s.egressRead egress page pid = s.accept ([egress, page] ++ s.queuePage e) := by
  have other : page ≠ 0 := by rw [is]; decide
  simp only [State.egressRead, named, if_neg other, if_pos is]

theorem State.egressRead_counters (named : sideOf egress = some e) (is : page = 2) :
    s.egressRead egress page pid =
      s.accept ([egress, page] ++ (s.egress e).counters.list.flatMap (beBytes 4)) := by
  have other : page ≠ 0 ∧ page ≠ 1 := by rw [is]; decide
  obtain ⟨not0, not1⟩ := other
  simp only [State.egressRead, named, if_neg not0, if_neg not1, if_pos is]

theorem State.egressRead_continuity (named : sideOf egress = some e) (is : page = 3) (range : pid.toNat ≤ 8191) :
    s.egressRead egress page pid = s.accept ([egress, page] ++ (s.egress e).continuityPage pid) := by
  have other : page ≠ 0 ∧ page ≠ 1 ∧ page ≠ 2 := by rw [is]; decide
  obtain ⟨not0, not1, not2⟩ := other
  have valid : page = 3 ∧ pid.toNat < 8192 := ⟨is, by omega⟩
  simp only [State.egressRead, named, if_neg not0, if_neg not1, if_neg not2, if_pos valid]

theorem State.egressRead_noPage (out : 3 < page.toNat ∨ page = 3 ∧ 8191 < pid.toNat) :
    s.egressRead egress page pid = s.refuse .badArg [egress, page] := by
  have other : page ≠ 0 ∧ page ≠ 1 ∧ page ≠ 2 ∧ ¬(page = 3 ∧ pid.toNat < 8192) := by
    rcases out with above | ⟨is, above⟩
    · refine ⟨?_, ?_, ?_, ?_⟩
      · rintro rfl
        exact absurd above (by decide)
      · rintro rfl
        exact absurd above (by decide)
      · rintro rfl
        exact absurd above (by decide)
      · rintro ⟨rfl, -⟩
        exact absurd above (by decide)
    · rw [is]
      exact ⟨by decide, by decide, by decide, fun low => by omega⟩
  obtain ⟨not0, not1, not2, not3⟩ := other
  unfold State.egressRead
  split
  · rfl
  · simp only [if_neg not0, if_neg not1, if_neg not2, if_neg not3]

/-- A read takes at most a free value. -/
theorem State.egressRead_state :
    (s.egressRead egress page pid).state = { s with freeCount := (s.egressRead egress page pid).state.freeCount } := by
  unfold State.egressRead
  split
  · rfl
  · split
    · split <;> rfl
    · split
      · rfl
      · split
        · rfl
        · split <;> rfl

end

/-! ## Page 1 -/

theorem allSlots_eq : allSlots = List.finRange 6 := by decide

theorem headStamp_eq (queue : List Buffer) :
    (headStamp queue).toNat = (queue.head?.map fun b => b.arrival.toNat).getD 0 := by
  cases queue <;> rfl

theorem State.queuePage_eq (s : State) (e : Side) :
    s.queuePage e =
      ((List.finRange 6).flatMap fun n =>
        beBytes 2 (s.egress e).queues[n].length ++
          beBytes 4 (((s.egress e).queues[n].head?.map fun b => b.arrival.toNat).getD 0)) ++
      beBytes 2 (s.poolCapacity (egressOwner e)) ++ beBytes 2 (s.poolFree (egressOwner e)) ++
      beBytes 2 (s.poolHolding (egressOwner e)) := by
  rw [State.queuePage, State.poolBytes, allSlots_eq]
  simp only [bytes32_eq, headStamp_eq, List.append_assoc]

/-! ## Page 3 -/

/-- The value of a nibble of page 3: the entry of a PID of the page, and 0 behind the last. -/
def Egress.nibble (x : Egress) (pid : BitVec 16) (k : Nat) : Nat :=
  if k < min 96 (8192 - pid.toNat) then (x.continuityAt (BitVec.ofNat 13 (pid.toNat + k))).toNat else 0

theorem Egress.nibble_eq (x : Egress) (pid : BitVec 16) (k : Nat) :
    ((x.continuityFrom pid.toNat)[k]?.map BitVec.toNat).getD 0 = x.nibble pid k := by
  unfold Egress.continuityFrom Egress.nibble
  rw [List.getElem?_map]
  by_cases listed : k < min 96 (8192 - pid.toNat)
  · have small : (BitVec.ofNat 13 (pid.toNat + k)).toNat = pid.toNat + k := by
      rw [BitVec.toNat_ofNat, Nat.mod_eq_of_lt (by omega)]
    rw [if_pos listed, List.getElem?_range listed, Egress.continuityAt, small]
    rfl
  · rw [if_neg listed, List.getElem?_eq_none (by rw [List.length_range]; omega)]
    rfl

theorem Egress.continuityPage_eq (x : Egress) (pid : BitVec 16) :
    x.continuityPage pid = beBytes 2 pid.toNat ++ beBytes 1 (min 96 (8192 - pid.toNat)) ++
      (List.range ((min 96 (8192 - pid.toNat) + 1) / 2)).map fun k =>
        BitVec.ofNat 8 (16 * x.nibble pid (2 * k) + x.nibble pid (2 * k + 1)) := by
  have length : (x.continuityFrom pid.toNat).length = min 96 (8192 - pid.toNat) := by simp [Egress.continuityFrom]
  rw [Egress.continuityPage, nibblePairs_eq, length, bytes16_eq]
  simp only [Egress.nibble_eq]

/-- Settles O39, page by page. -/
theorem egressReadReturnsAPage : Obligations.EgressReadReturnsAPage := by
  refine ⟨fun l tag egress page pid s serves => ?read, fun s e => ?queues, fun x pid _ => x.continuityPage_eq pid⟩
  case read =>
    obtain ⟨t, ran, replied, same⟩ := served (c := .egressRead l tag egress page pid) serves rfl
    have outcome {a : Answer} (answer : s.egressRead egress page pid = a) : Replied s t l tag 0x52 a.status a.data := by
      have applied : s.applyRequest l (.egressRead egress page pid) = a := answer
      rwa [applied] at replied
    have state : t = { s with agent := t.agent, freeCount := t.freeCount } := by
      have kept : (s.applyRequest l (.egressRead egress page pid)).state =
        { s with freeCount := (s.applyRequest l (.egressRead egress page pid)).state.freeCount } :=
        State.egressRead_state
      unfold SameButAgent at same
      generalize (s.applyRequest l (.egressRead egress page pid)).state = u at same kept
      generalize t.agent = agent at same
      generalize u.freeCount = count at kept
      subst kept
      subst same
      rfl
    refine ⟨t, ran, state, fun out => ?refused, fun e named => ⟨fun is partly => ?settings, fun is full => ?waiting,
      fun is => outcome (State.egressRead_queues named is), fun is => ?counters,
      fun is range => outcome (State.egressRead_continuity named is range)⟩⟩
    case refused =>
      rcases out with none | out
      · exact outcome (State.egressRead_noSide (sideOf_none egress none))
      · exact outcome (State.egressRead_noPage out)
    case settings =>
      have page0 := outcome (State.egressRead_settings named is)
      rw [partly] at page0
      simp only [State.settingsPage, partly, Bool.false_eq_true, if_false, ← List.append_assoc] at page0 ⊢
      exact page0
    case waiting =>
      have page0 := outcome (State.egressRead_settings named is)
      have free : ((s.freeBytes 1).map fun b => b % 60) = [Config.freeByte (s.freeCount + 0) % 60] := rfl
      rw [full] at page0
      simp only [State.settingsPage, full, if_true, free, ← List.append_assoc] at page0 ⊢
      exact ⟨_, page0⟩
    case counters =>
      have page2 := outcome (State.egressRead_counters named is)
      simp only [EgressCounters.list, List.flatMap_cons, List.flatMap_nil, List.append_nil, ← List.append_assoc] at page2
      exact page2
  case queues =>
    cases e <;> exact s.queuePage_eq _

end Sys2Proof.Machine
end

section
/-! SUPPORT. The due slot (R144 to R152): one packet appended, whatever is discarded before it. -/

namespace Sys2Proof.Machine

open Sys2Proof

/-! ## One packet in the stream (R152) -/

/-- The cells that a packet of 188 bytes completes from x to y. -/
def CellsAppended (x y : Egress) : Prop :=
  let fill := x.assembly.bytes.length
  ∃ cells : List StreamCell, y.txBuffer = x.txBuffer ++ cells ∧
    cells.length = (if 52 ≤ fill then 4 else 3) ∧ (∀ c ∈ cells, c.payload.length = 60 ∧ c.isEnd = false) ∧
    cells.map StreamCell.startOffset =
      (if x.assembly.startOffset = 255 then BitVec.ofNat 8 fill else x.assembly.startOffset) ::
        List.replicate (cells.length - 1) 255 ∧
    y.assembly.bytes.length = (fill + 188) % 60 ∧ y.assembly.startOffset = 255 ∧ y.assembly.isEnd = false

/-- From x to y one packet has joined the stream, and the pacer and the settings stand. -/
structure PacketAppended (x y : Egress) : Prop where
  room : y.assembly.bytes.length < 60
  kept : y = { x with
    txBuffer := y.txBuffer, assembly := y.assembly, counters := y.counters, pointer := y.pointer
    continuity := y.continuity, queues := y.queues }
  cells : CellsAppended x y

/-- The stream, the pacer and the settings of z are those of x. -/
def SameStream (x z : Egress) : Prop :=
  z = { x with counters := z.counters, pointer := z.pointer, continuity := z.continuity, queues := z.queues }

theorem PacketAppended.of_append {x z : Egress} (same : SameStream x z) (room : x.assembly.bytes.length < 60)
    (p : Packet) (counters : EgressCounters) : PacketAppended x { z.appendPacket p with counters := counters } := by
  have assembly : z.assembly = x.assembly := by rw [same]
  have buffer : z.txBuffer = x.txBuffer := by rw [same]
  have zRoom : z.assembly.bytes.length < 60 := by rw [assembly]; exact room
  obtain ⟨-, yRoom, cells, cell, appended⟩ := z.appendPacket_spec p zRoom
  have completed := z.appendPacket_cells p zRoom
  rw [assembly, buffer] at completed
  refine ⟨yRoom, ?_, completed⟩
  rw [appended]
  unfold SameStream at same
  generalize z.counters = zCounters, z.pointer = zPointer, z.continuity = zContinuity, z.queues = zQueues at same
  subst same
  rfl

theorem PacketAppended.of_same {x z y : Egress} (same : SameStream x z) (appended : PacketAppended z y) :
    PacketAppended x y := by
  obtain ⟨room, kept, cells⟩ := appended
  have assembly : z.assembly = x.assembly := by rw [same]
  have buffer : z.txBuffer = x.txBuffer := by rw [same]
  refine ⟨room, ?_, ?_⟩
  · unfold SameStream at same
    generalize z.counters = zCounters, z.pointer = zPointer, z.continuity = zContinuity, z.queues = zQueues at same
    subst same
    exact kept
  · unfold CellsAppended at cells ⊢
    rw [assembly, buffer] at cells
    exact cells

theorem SameStream.refl (x : Egress) : SameStream x x := rfl

theorem Egress.sendNull_appends {x : Egress} (room : x.assembly.bytes.length < 60) : PacketAppended x x.sendNull :=
  PacketAppended.of_append (SameStream.refl x) room nullPacket _

theorem Egress.renumberTable_same (x : Egress) (b : Buffer) : SameStream x (x.renumberTable b) := by
  unfold Egress.renumberTable
  split <;> rfl

theorem Egress.serve_same (x : Egress) (n : SlotId) (rest : List Buffer) : SameStream x (x.serve n rest) := rfl

theorem Egress.sendBuffer_appends {x : Egress} (room : x.assembly.bytes.length < 60) (td : Stamp) (b : Buffer) :
    PacketAppended x (x.sendBuffer td b) :=
  PacketAppended.of_append (x.renumberTable_same b) room (x.outgoing td b) _

theorem Egress.continuity_renumberTable (x : Egress) (b : Buffer) :
    (x.renumberTable b).continuity =
      if b.renumber && packetHasPayload b.packet then
        Memory.write 0 x.continuity (packetPid b.packet).toNat (x.continuityAt (packetPid b.packet) + 1)
      else x.continuity := by
  unfold Egress.renumberTable
  split <;> rfl

/-- The buffer's bytes join the stream, it is counted, and its packet renumbers the table. -/
theorem Egress.sendBuffer_spec {x : Egress} (room : x.assembly.bytes.length < 60) (td : Stamp) (b : Buffer) :
    (x.sendBuffer td b).streamBytes = x.streamBytes ++ (x.outgoing td b).toList ∧
    (x.sendBuffer td b).counters = { x.counters with
      sent := min (x.counters.sent + 1) 4294967295
      corrections := min (x.counters.corrections + (corrects b).toNat) 4294967295 } ∧
    (x.sendBuffer td b).pointer = x.pointer ∧ (x.sendBuffer td b).continuity = (x.renumberTable b).continuity ∧
    (x.sendBuffer td b).queues = x.queues := by
  have same := x.renumberTable_same b
  have assembly : (x.renumberTable b).assembly = x.assembly := by rw [same]
  have stream : (x.renumberTable b).streamBytes = x.streamBytes := by
    rw [Egress.streamBytes, Egress.streamBytes, assembly, same]
  obtain ⟨joined, -, cells, cell, appended⟩ :=
    (x.renumberTable b).appendPacket_spec (x.outgoing td b) (by rw [assembly]; exact room)
  have counters : (x.renumberTable b).counters = x.counters := by
    unfold Egress.renumberTable
    split <;> rfl
  have pointer : (x.renumberTable b).pointer = x.pointer := by
    unfold Egress.renumberTable
    split <;> rfl
  have queues : (x.renumberTable b).queues = x.queues := by
    unfold Egress.renumberTable
    split <;> rfl
  rw [stream] at joined
  unfold Egress.sendBuffer
  refine ⟨joined, ?_, ?_, ?_, ?_⟩
  · rw [appended, counters]
    rfl
  · rw [appended]
    exact pointer
  · rw [appended]
  · rw [appended]
    exact queues

/-! ## The due slot (R145 to R148) -/

/-- From s to t the due slot has changed the egress e, the banks, the events and the contexts alone. -/
def DueFrame (s : State) (e : Side) (t : State) : Prop :=
  t = { s.setEgress e (t.egress e) with
    banks := t.banks, events := t.events, capture0 := t.capture0, capture1 := t.capture1 }

theorem DueFrame.setEgress (s : State) (e : Side) (y : Egress) : DueFrame s e (s.setEgress e y) := by
  cases e <;> rfl

theorem DueFrame.latch {s t : State} {e : Side} (frame : DueFrame s e t) (f : EventFlag) : DueFrame s e (t.latch f) := by
  unfold DueFrame at frame ⊢
  rw [State.egress_latch]
  generalize t.egress e = y at frame ⊢
  generalize t.banks = banks, t.events = events, t.capture0 = capture0, t.capture1 = capture1 at frame
  subst frame
  rfl

theorem DueFrame.afterFree {s t : State} {e : Side} (frame : DueFrame s e t) (freed : List BufferId) :
    DueFrame s e (t.afterFree freed) := by
  have freeFrame := t.afterFree_one_frame freed
  unfold DueFrame at frame ⊢
  rw [State.egress_afterFree]
  generalize t.egress e = y at frame ⊢
  generalize t.afterFree freed = u at freeFrame ⊢
  generalize t.banks = banks, t.events = events, t.capture0 = capture0, t.capture1 = capture1 at frame
  generalize u.banks = uBanks, u.capture0 = uCapture0, u.capture1 = uCapture1 at freeFrame
  subst frame
  subst freeFrame
  rfl

theorem DueFrame.trans {s t u : State} {e : Side} (first : DueFrame s e t) (second : DueFrame t e u) :
    DueFrame s e u := by
  unfold DueFrame at first second ⊢
  generalize t.egress e = y at first
  generalize t.banks = banks, t.events = events, t.capture0 = capture0, t.capture1 = capture1 at first
  subst first
  refine second.trans ?_
  cases e <;> rfl

theorem State.sendNull_spec (e : Side) (s : State) (room : (s.egress e).assembly.bytes.length < 60) :
    PacketAppended (s.egress e) ((s.setEgress e (s.egress e).sendNull).egress e) ∧
      DueFrame s e (s.setEgress e (s.egress e).sendNull) := by
  rw [State.egress_setEgress_same]
  exact ⟨Egress.sendNull_appends room, DueFrame.setEgress s e _⟩

theorem State.dueSlot_spec (td : Stamp) (e : Side) (fuel : Nat) (s : State)
    (room : (s.egress e).assembly.bytes.length < 60) :
    PacketAppended (s.egress e) ((State.dueSlot td e fuel s).egress e) ∧ DueFrame s e (State.dueSlot td e fuel s) := by
  induction fuel generalizing s with
  | zero => exact State.sendNull_spec e s room
  | succ fuel ih =>
    unfold State.dueSlot
    split
    · exact State.sendNull_spec e s room
    · next n b rest selected =>
      split
      · have same : SameStream (s.egress e) ((s.egress e).serve n rest).countStale := rfl
        have egress : ((((s.setEgress e ((s.egress e).serve n rest).countStale).latch (.stale e)).afterFree
            [b.id]).egress e) = ((s.egress e).serve n rest).countStale := by
          rw [State.egress_afterFree, State.egress_latch, State.egress_setEgress_same]
        obtain ⟨appended, frame⟩ := ih _ (by rw [egress]; exact room)
        rw [egress] at appended
        exact ⟨appended.of_same same, (((DueFrame.setEgress s e _).latch _).afterFree _).trans frame⟩
      · rw [State.egress_afterFree, State.egress_setEgress_same]
        exact ⟨(Egress.sendBuffer_appends (x := (s.egress e).serve n rest) room td b).of_same ((s.egress e).serve_same n rest),
          (DueFrame.setEgress s e _).afterFree _⟩

/-! ## A due slot taken (R144, R147) -/

/-- The egress e with other due slots outstanding. -/
def State.withDue (s : State) (e : Side) (stamps : List Stamp) : State :=
  s.setEgress e { s.egress e with dueStamps := stamps }

theorem State.heldBuffers_withDue (s : State) (e : Side) (stamps : List Stamp) :
    (s.withDue e stamps).heldBuffers = s.heldBuffers := by cases e <;> rfl

theorem State.drainTest_withDue (s : State) (e : Side) (stamps : List Stamp) (b : Fin 8) :
    (s.withDue e stamps).drainTest b = (s.drainTest b).withDue e stamps := by
  have banks : (s.withDue e stamps).banks = s.banks := by cases e <;> rfl
  have held : (s.withDue e stamps).bankHeld b = s.bankHeld b := by
    rw [State.bankHeld, State.heldBuffers_withDue, State.bankHeld]
  cases state : s.banks[b].state with
  | active =>
    have keeps (u : State) (same : u.banks = s.banks) : u.drainTest b = u := by
      rw [State.drainTest, same, state]
    rw [keeps s rfl, keeps _ banks]
  | draining o =>
    have tests (u : State) (same : u.banks = s.banks) : u.drainTest b =
        if u.bankHeld b = 0 then { u with banks := s.banks.set b ⟨o, .active⟩ } else u := by
      rw [State.drainTest, same, state]
    rw [tests s rfl, tests _ banks, held]
    split
    · cases e <;> rfl
    · rfl

theorem State.drainTests_withDue (freed : List BufferId) (s : State) (e : Side) (stamps : List Stamp) :
    freed.foldl (fun t id => t.drainTest id.bank) (s.withDue e stamps) =
      (freed.foldl (fun t id => t.drainTest id.bank) s).withDue e stamps := by
  induction freed generalizing s with
  | nil => rfl
  | cons id freed ih => rw [List.foldl_cons, List.foldl_cons, State.drainTest_withDue, ih]

theorem State.resumeCaptures_withDue (s : State) (e : Side) (stamps : List Stamp) :
    (s.withDue e stamps).resumeCaptures = s.resumeCaptures.withDue e stamps := by
  have free : (s.withDue e stamps).poolFree .capture = s.poolFree .capture := by cases e <;> rfl
  unfold State.resumeCaptures
  rw [free]
  split <;> cases e <;> rfl

theorem State.afterFree_withDue (s : State) (freed : List BufferId) (e : Side) (stamps : List Stamp) :
    (s.withDue e stamps).afterFree freed = (s.afterFree freed).withDue e stamps := by
  rw [State.afterFree, State.drainTests_withDue, State.resumeCaptures_withDue]
  rfl

theorem Egress.stale_iff (x : Egress) (td : Stamp) (b : Buffer) :
    x.stale td b = true ↔ x.ageLimit * 27000 < (td - b.arrival).toNat := by
  rw [Egress.stale, decide_eq_true_iff, ms_eq]
  rfl

theorem State.dueSlot_none {td : Stamp} {e : Side} {s : State} (none : (s.egress e).select = none) (fuel : Nat) :
    State.dueSlot td e fuel s = s.setEgress e (s.egress e).sendNull := by
  cases fuel with
  | zero => rfl
  | succ fuel => rw [State.dueSlot, none]

theorem State.dueSlot_fresh {td : Stamp} {e : Side} {s : State} {n : SlotId} {b : Buffer} {rest : List Buffer}
    (selected : (s.egress e).select = some (n, b, rest)) (fresh : ¬(s.egress e).stale td b = true) (fuel : Nat) :
    State.dueSlot td e (fuel + 1) s =
      (s.setEgress e (((s.egress e).serve n rest).sendBuffer td b)).afterFree [b.id] := by
  rw [State.dueSlot, selected]
  exact if_neg fresh

theorem State.dueSlot_stale {td : Stamp} {e : Side} {s : State} {n : SlotId} {b : Buffer} {rest : List Buffer}
    (selected : (s.egress e).select = some (n, b, rest)) (stale : (s.egress e).stale td b = true) (fuel : Nat) :
    State.dueSlot td e (fuel + 1) s = State.dueSlot td e fuel
      (((s.setEgress e ((s.egress e).serve n rest).countStale).latch (.stale e)).afterFree [b.id]) := by
  rw [State.dueSlot, selected]
  exact if_pos stale

/-- One buffer less after a sub-queue has been served. -/
theorem Egress.queued_serve {x : Egress} {n : SlotId} {b : Buffer} {rest : List Buffer}
    (head : x.queues[n] = b :: rest) : x.queued = (x.serve n rest).queued + 1 := by
  have others (m : SlotId) : (x.serve n rest).queues[m].length = if n = m then rest.length else x.queues[m].length := by
    rw [Egress.serve, x.queues_set]
    split <;> rfl
  have length : x.queues[n].length = rest.length + 1 := by rw [head]; rfl
  simp only [Egress.queued, allSlots, List.map_cons, List.map_nil, List.sum_cons, List.sum_nil, others]
  have slots : ∀ m : SlotId, m = 0 ∨ m = 1 ∨ m = 2 ∨ m = 3 ∨ m = 4 ∨ m = 5 := by decide
  rcases slots n with rfl | rfl | rfl | rfl | rfl | rfl <;> (simp at length ⊢; omega)

theorem exec_dueSlot {e : Side} {td : Stamp} {later : List Stamp} {s : State} (locked : s.power = .locked)
    (running : (s.egress e).run = .running) (due : (s.egress e).dueStamps = td :: later) :
    exec (.dueSlot e) s = .next (State.dueSlot td e (s.egress e).queued (s.withDue e later)) := by
  have ready : ((s.egress e).run == .running && (s.egress e).dueStamps != []) = true := by simp [running, due]
  refine congrArg Host.Outcome.next ((State.whenDue_of_due s _ _ locked ready).trans ?_)
  rw [State.takeDue, due]
  rfl

theorem State.egress_withDue (s : State) (e : Side) (stamps : List Stamp) :
    (s.withDue e stamps).egress e = { s.egress e with dueStamps := stamps } := State.egress_setEgress_same s e _

theorem State.setEgress_withDue (s : State) (e : Side) (stamps : List Stamp) (y : Egress) :
    (s.withDue e stamps).setEgress e y = s.setEgress e y := by cases e <;> rfl

/-- Settles O40: what every due slot leaves by the packet appended, then the three ways it can go. -/
theorem dueSlotAppendsOnePacket : Obligations.DueSlotAppendsOnePacket := by
  intro e td later s locked running due room x
  have egress := s.egress_withDue e later
  have room' : ((s.withDue e later).egress e).assembly.bytes.length < 60 := by rw [egress]; exact room
  obtain ⟨⟨full, kept, cells⟩, frame⟩ := State.dueSlot_spec td e (s.egress e).queued (s.withDue e later) room'
  rw [egress] at kept cells
  have ran := exec_dueSlot locked running due
  refine ⟨_, ran, full, ?acc, ?run, ?rate, ?due, ?policy, ?reserve, ?age, ?offset, ?frame, cells, fun empty => ?null,
    fun n b rest selected fresh => ?fresh, fun n b rest selected stale => ?stale⟩
  case acc => rw [kept]
  case run =>
    rw [kept]
    exact running
  case rate => rw [kept]
  case due => rw [kept]
  case policy => rw [kept]
  case reserve => rw [kept]
  case age => rw [kept]
  case offset => rw [kept]
  case frame =>
    unfold DueFrame at frame
    rw [State.setEgress_withDue] at frame
    exact frame
  case null =>
    have none : ((s.withDue e later).egress e).select = none := by
      rw [egress]
      exact Egress.select_of_empty _ empty
    rw [State.dueSlot_none none, State.setEgress_withDue, State.egress_setEgress_same, egress]
    obtain ⟨stream, -, buffer, assembly, sent⟩ :=
      Egress.sendNull_spec { s.egress e with dueStamps := later } room
    refine ⟨stream, ?_, ?_, ?_, ?_, rfl⟩
    · rw [sent]
    · rw [sent]
    · rw [sent]
    · rw [sent]
  case fresh =>
    have selected' : ((s.withDue e later).egress e).select = some (n, b, rest) := by
      rw [egress]
      exact selected
    have fresh' : ¬((s.withDue e later).egress e).stale td b = true := by
      rw [egress, Egress.stale_iff]
      exact Nat.not_lt.mpr fresh
    obtain ⟨stream, counters, pointer, continuity, queues⟩ :=
      Egress.sendBuffer_spec (x := { s.egress e with dueStamps := later }.serve n rest) room td b
    rw [Egress.queued_serve (Egress.select_spec _ selected), State.dueSlot_fresh selected' fresh',
      State.egress_afterFree, State.setEgress_withDue, State.egress_setEgress_same, egress]
    refine ⟨stream, counters, pointer, continuity.trans ?_, queues, rfl⟩
    rw [Egress.continuity_renumberTable, Egress.continuity_renumberTable]
    rfl
  case stale =>
    have selected' : ((s.withDue e later).egress e).select = some (n, b, rest) := by
      rw [egress]
      exact selected
    have stale' : ((s.withDue e later).egress e).stale td b = true := by
      rw [egress, Egress.stale_iff]
      exact stale
    rw [ran, Egress.queued_serve (Egress.select_spec _ selected), State.dueSlot_stale selected' stale',
      State.setEgress_withDue, egress]
    generalize discarded : ({ s.egress e with
      pointer := n, queues := (s.egress e).queues.set n rest
      counters := { (s.egress e).counters with
        stale := min ((s.egress e).counters.stale + 1) 4294967295 } } : Egress) = z
    have next : (((s.setEgress e z).latch (.stale e)).afterFree [b.id]).egress e = z := by
      rw [State.egress_afterFree, State.egress_latch, State.egress_setEgress_same]
    have again := exec_dueSlot (e := e) (td := td) (later := later)
      (s := ((s.setEgress e z).latch (.stale e)).afterFree [b.id]) (by
        rw [State.afterFree_power]
        cases e <;> exact locked) (by rw [next, ← discarded]; exact running) (by rw [next, ← discarded]; exact due)
    rw [next] at again
    refine Eq.trans ?_ again.symm
    rw [← State.afterFree_withDue, ← discarded]
    cases e <;> rfl

end Sys2Proof.Machine
end

section
/-! SUPPORT. What a due slot does to the packet (R149 to R151, R175) and which sub-queue it serves (R146). -/

namespace Sys2Proof.Machine

open Sys2Proof

/-! ## Renumbering (R149) -/

theorem packetSetCc_cc (p : Packet) (cc : BitVec 4) : packetCc (packetSetCc p cc) = cc := by
  have byte : ∀ (high low : BitVec 4), (high ++ low).extractLsb' 0 4 = low := by decide
  rw [packetCc, packetSetCc, Vector.getElem_set_self]
  exact byte _ _

theorem packetSetCc_high (p : Packet) (cc : BitVec 4) :
    (packetSetCc p cc)[3].extractLsb' 4 4 = p[3].extractLsb' 4 4 := by
  have byte : ∀ (high low : BitVec 4), (high ++ low).extractLsb' 4 4 = high := by decide
  rw [packetSetCc, Vector.getElem_set_self]
  exact byte _ _

theorem packetSetCc_other (p : Packet) (cc : BitVec 4) {i : Fin 188} (other : i ≠ 3) : (packetSetCc p cc)[i] = p[i] :=
  Vector.getElem_set_ne _ _ fun same => other (Fin.ext same.symm)

theorem Egress.renumbered_of_flag {b : Buffer} (flag : b.renumber = true) (x : Egress) :
    x.renumbered b = packetSetCc b.packet
      (if packetHasPayload b.packet then x.continuityAt (packetPid b.packet)
       else x.continuityAt (packetPid b.packet) + 15) := if_pos flag

theorem Egress.renumbered_of_none {b : Buffer} (none : b.renumber = false) (x : Egress) :
    x.renumbered b = b.packet := if_neg (by rw [none]; decide)

theorem Egress.continuityAt_renumberTable {x : Egress} {b : Buffer} (rising : Rising x.continuity)
    (flag : b.renumber = true) (pid : Pid) :
    (x.renumberTable b).continuityAt pid =
      if packetHasPayload b.packet ∧ pid = packetPid b.packet then x.continuityAt pid + 1 else x.continuityAt pid := by
  rw [Egress.continuityAt, Egress.continuity_renumberTable, flag, Bool.true_and]
  by_cases payload : packetHasPayload b.packet = true
  · rw [if_pos payload]
    by_cases same : pid = packetPid b.packet
    · rw [if_pos ⟨payload, same⟩, same, Memory.read_write_same rising]
    · have other : (packetPid b.packet).toNat ≠ pid.toNat := fun h => same (BitVec.eq_of_toNat_eq h.symm)
      rw [if_neg fun h => same h.2, Memory.read_write_other _ _ _ other rising]
      rfl
  · rw [if_neg payload, if_neg fun h => payload h.1]
    rfl

/-! ## The clock reference (R151, R175) -/

/-- Six bytes cut from a number make it up again. -/
theorem bytes_of_48 (x : BitVec 48) :
    x.extractLsb' 40 8 ++ x.extractLsb' 32 8 ++ x.extractLsb' 24 8 ++ x.extractLsb' 16 8 ++ x.extractLsb' 8 8 ++
      x.extractLsb' 0 8 = x := by
  ext i hi
  have bit : x[i] = x.getLsbD i := (BitVec.getLsbD_eq_getElem hi).symm
  rw [bit]
  simp only [BitVec.getElem_append, BitVec.getElem_extractLsb']
  split_ifs <;> (congr 1; omega)

theorem packetClockBits_set (p : Packet) (base : BitVec 33) (ext : BitVec 9) :
    packetClockBits (packetSetClock p base ext) = base ++ (packetClockBits p).extractLsb' 9 6 ++ ext := by
  refine Eq.trans ?_ (bytes_of_48 (base ++ (packetClockBits p).extractLsb' 9 6 ++ ext))
  rw [packetClockBits, packetSetClock]
  simp only [Vector.getElem_set_self, Vector.getElem_set_ne, ne_eq, Nat.reduceEqDiff, not_false_eq_true]

theorem extract_fields (base : BitVec 33) (mid : BitVec 6) (ext : BitVec 9) :
    (base ++ mid ++ ext).extractLsb' 15 33 = base ∧ (base ++ mid ++ ext).extractLsb' 9 6 = mid ∧
    (base ++ mid ++ ext).extractLsb' 0 9 = ext := by
  refine ⟨?_, ?_, ?_⟩
  · ext i hi
    have notExt : ¬15 + i < 9 := by omega
    have notMid : ¬15 + i - 9 < 6 := by omega
    have at' : 15 + i - 9 - 6 = i := by omega
    rw [BitVec.getElem_extractLsb', BitVec.getLsbD_append, BitVec.getLsbD_append, if_neg notExt, if_neg notMid, at',
      BitVec.getLsbD_eq_getElem]
  · ext i hi
    have notExt : ¬9 + i < 9 := by omega
    have inMid : 9 + i - 9 < 6 := by omega
    have at' : 9 + i - 9 = i := by omega
    rw [BitVec.getElem_extractLsb', BitVec.getLsbD_append, BitVec.getLsbD_append, if_neg notExt, if_pos inMid, at',
      BitVec.getLsbD_eq_getElem]
  · ext i hi
    have inExt : 0 + i < 9 := by omega
    have at' : 0 + i = i := by omega
    rw [BitVec.getElem_extractLsb', BitVec.getLsbD_append, if_pos inExt, at', BitVec.getLsbD_eq_getElem]

theorem packetSetClock_other (p : Packet) (base : BitVec 33) (ext : BitVec 9) {i : Fin 188} (other : i < 6 ∨ 11 < i) :
    (packetSetClock p base ext)[i] = p[i] := by
  have outside : i.val < 6 ∨ 11 < i.val := other
  rw [packetSetClock]
  simp only [Fin.getElem_fin]
  rw [Vector.getElem_set_ne _ _ (by omega), Vector.getElem_set_ne _ _ (by omega), Vector.getElem_set_ne _ _ (by omega),
    Vector.getElem_set_ne _ _ (by omega), Vector.getElem_set_ne _ _ (by omega), Vector.getElem_set_ne _ _ (by omega)]

theorem wrapClock_eq {v : Int} (low : -(Config.clockModulus : Int) ≤ v) (high : v < 2 * (Config.clockModulus : Int)) :
    wrapClock v = v % (Config.clockModulus : Int) := by
  unfold wrapClock
  simp only [Config.clockModulus] at low high ⊢
  split_ifs <;> omega

theorem packetClock_set (p : Packet) (base : BitVec 33) (ext : BitVec 9) :
    packetClockBase (packetSetClock p base ext) = base ∧ packetClockExt (packetSetClock p base ext) = ext ∧
    (packetClockBits (packetSetClock p base ext)).extractLsb' 9 6 = (packetClockBits p).extractLsb' 9 6 := by
  obtain ⟨atBase, atMid, atExt⟩ := extract_fields base ((packetClockBits p).extractLsb' 9 6) ext
  rw [packetClockBase, packetClockExt, packetClockBits_set]
  exact ⟨atBase, atExt, atMid⟩

/-- The value that a correction writes. -/
theorem clockValue_set (p : Packet) {v : Nat} (range : v < 2576980377600) :
    let q := packetSetClock p (BitVec.ofNat 33 (v / 300)) (BitVec.ofNat 9 (v % 300))
    clockValue q = v ∧ (packetClockExt q).toNat < 300 := by
  intro q
  obtain ⟨base, ext, -⟩ := packetClock_set p (BitVec.ofNat 33 (v / 300)) (BitVec.ofNat 9 (v % 300))
  have baseValue : (packetClockBase q).toNat = v / 300 := by
    rw [base, BitVec.toNat_ofNat]
    omega
  have extValue : (packetClockExt q).toNat = v % 300 := by
    rw [ext, BitVec.toNat_ofNat]
    omega
  refine ⟨?_, by omega⟩
  rw [clockValue, baseValue, extValue]
  omega

theorem correctPacket_value {d : Nat} {offset : Int} (p : Packet) (residence : d ≤ 27000000)
    (low : -8388608 ≤ offset) (high : offset ≤ 8388607) :
    let v : Int := (packetClockBase p).toNat * 300 + (packetClockExt p).toNat
    clockValue (correctPacket d offset p) = (v + d + offset) % 2576980377600 ∧
    (packetClockExt (correctPacket d offset p)).toNat < 300 := by
  intro v
  have baseRange := (packetClockBase p).isLt
  have extRange := (packetClockExt p).isLt
  have value : clockValue p = v := by simp [clockValue, v]
  have wrapped : wrapClock (clockValue p + d + offset) = (v + d + offset) % 2576980377600 := by
    rw [value]
    exact wrapClock_eq (by simp only [v, Config.clockModulus]; omega) (by simp only [v, Config.clockModulus]; omega)
  have range : (wrapClock (clockValue p + d + offset)).toNat < 2576980377600 := by omega
  obtain ⟨written, ext⟩ := clockValue_set p range
  refine ⟨Eq.trans written ?_, ext⟩
  rw [wrapped]
  omega

theorem packetHasClockRef_iff (p : Packet) : packetHasClockRef p = true ↔
    (packetAfc p = 2 ∨ packetAfc p = 3) ∧ 7 ≤ p[4].toNat ∧ p[5].getLsbD 4 = true := by
  have field : ∀ afc : BitVec 2, afc.getLsbD 1 = true ↔ afc = 2 ∨ afc = 3 := by decide
  rw [packetHasClockRef, Bool.and_eq_true, Bool.and_eq_true, field, decide_eq_true_iff, and_assoc]

/-! ## Selection (R146) -/

/-- The sub-queues examined before the one served are empty. -/
theorem Egress.select_first {x : Egress} {n : SlotId} {b : Buffer} {rest : List Buffer}
    (selected : x.select = some (n, b, rest)) :
    ∃ before after, x.order = before ++ n :: after ∧ ∀ m ∈ before, x.queues[m] = [] := by
  unfold Egress.select at selected
  rw [List.findSome?_eq_some_iff] at selected
  obtain ⟨before, m, after, order, found, skipped⟩ := selected
  have empty (k : SlotId) (mem : k ∈ before) : x.queues[k] = [] := by
    have none := skipped k mem
    split at none
    · assumption
    · cases none
  split at found
  · cases found
  · obtain ⟨rfl, -⟩ := Prod.mk.inj (Option.some.inj found)
    exact ⟨before, after, order, empty⟩

/-- The slots below one stand before it in ascending order. -/
theorem mem_before {before after : List SlotId} {n m : SlotId} (split : allSlots = before ++ n :: after)
    (below : m < n) : m ∈ before := by
  have ascending : allSlots.Pairwise (· < ·) := by decide
  have mem := mem_allSlots m
  rw [split] at ascending mem
  obtain ⟨-, tail, -⟩ := List.pairwise_append.mp ascending
  rcases List.mem_append.mp mem with found | found
  · exact found
  · rcases List.mem_cons.mp found with rfl | later
    · exact absurd below (lt_irrefl _)
    · exact absurd below (lt_asymm (List.rel_of_pairwise_cons tail later))

theorem Egress.select_fixed {x : Egress} {n : SlotId} {b : Buffer} {rest : List Buffer}
    (selected : x.select = some (n, b, rest)) (fixed : x.policy = .fixed) (m : SlotId) (below : m < n) :
    x.queues[m] = [] := by
  obtain ⟨before, after, order, empty⟩ := Egress.select_first selected
  rw [Egress.order, fixed] at order
  exact empty m (mem_before order below)

theorem Egress.select_rotating {x : Egress} {n : SlotId} {b : Buffer} {rest : List Buffer}
    (selected : x.select = some (n, b, rest)) (rotating : x.policy = .rotating) :
    ∃ j : Fin 6, n = x.pointer + 1 + j ∧ ∀ k : Fin 6, k < j → x.queues[x.pointer + 1 + k] = [] := by
  obtain ⟨before, after, order, empty⟩ := Egress.select_first selected
  rw [Egress.order, rotating] at order
  obtain ⟨ahead, behind, split, images, served⟩ := List.map_eq_append_iff.mp order
  obtain ⟨j, later, tail, is, -⟩ := List.map_eq_cons_iff.mp served
  rw [tail] at split
  refine ⟨j, is.symm, fun k below => empty _ ?_⟩
  rw [← images]
  exact List.mem_map_of_mem (mem_before split below)

/-- Settles O41: renumbering, the clock reference and the selection, each by its own rules. -/
theorem dueSlotSelectsAndRewrites : Obligations.DueSlotSelectsAndRewrites := by
  refine ⟨⟨fun x b rising => ⟨fun none => ?kept, fun flag => ?renumbered⟩, fun d offset p residence low high => ?corrected,
    packetHasClockRef_iff, fun x td b => ⟨fun skips => ?outgoing, fun flag error reference => ?corrects⟩⟩,
    fun x => ⟨x.select_of_empty, x.select_ne_none, fun n b rest selected => ⟨Egress.select_spec x selected, ?fixed, ?rotating⟩⟩⟩
  case kept =>
    refine ⟨Egress.renumbered_of_none none x, ?_⟩
    rw [Egress.continuity_renumberTable, none]
    rfl
  case renumbered =>
    have less : ∀ c : BitVec 4, c + 15 = c - 1 := by decide
    rw [Egress.renumbered_of_flag flag, less]
    exact ⟨packetSetCc_cc _ _, fun i other => packetSetCc_other _ _ other, packetSetCc_high _ _,
      Egress.continuityAt_renumberTable rising flag⟩
  case corrected =>
    obtain ⟨value, ext⟩ := correctPacket_value p residence low high
    obtain ⟨-, -, middle⟩ := packetClock_set p _ _
    exact ⟨value, ext, fun i other => packetSetClock_other p _ _ other, middle⟩
  case outgoing =>
    have plain : ¬corrects b = true := by
      rcases skips with none | error | none <;> simp [corrects, *]
    exact if_neg plain
  case corrects =>
    have met : corrects b = true := by simp [corrects, flag, error, reference]
    exact if_pos met
  case fixed => exact fun fixed => Egress.select_fixed selected fixed
  case rotating => exact fun rotating => Egress.select_rotating selected rotating

end Sys2Proof.Machine
end

section
/-! SUPPORT. Links: the header check (R158), upstream delineation and the loss of the signal (R159 to R162), and received
cells (R163). -/

namespace Sys2Proof.Machine

open Sys2Proof

/-! ## The header check (R158) -/

theorem crcShift_xor (a b : Byte) : crcShift (a ^^^ b) = crcShift a ^^^ crcShift b := by
  have shifted : (a ^^^ b) <<< 1 = a <<< 1 ^^^ b <<< 1 := BitVec.shiftLeft_xor_distrib ..
  unfold crcShift
  rw [BitVec.getLsbD_xor, shifted]
  generalize a <<< 1 = x, b <<< 1 = y
  have twice : (x ^^^ y) ^^^ ((0x07 : Byte) ^^^ 0x07) = (x ^^^ 0x07) ^^^ (y ^^^ 0x07) := by ac_rfl
  cases a.getLsbD 7 <;> cases b.getLsbD 7
  · rfl
  · exact BitVec.xor_assoc ..
  · show (x ^^^ y) ^^^ (0x07 : Byte) = (x ^^^ (0x07 : Byte)) ^^^ y
    ac_rfl
  · rw [BitVec.xor_self, BitVec.xor_zero] at twice
    exact twice

theorem crcByte_xor (a b c d : Byte) : crcByte (a ^^^ b) (c ^^^ d) = crcByte a c ^^^ crcByte b d := by
  have mixed : (a ^^^ b) ^^^ (c ^^^ d) = (a ^^^ c) ^^^ (b ^^^ d) := by
    rw [BitVec.xor_assoc, ← BitVec.xor_assoc b, BitVec.xor_comm b c, BitVec.xor_assoc c, ← BitVec.xor_assoc]
  simp only [crcByte, mixed, crcShift_xor]

/-- The check is linear. -/
theorem headerCheck_xor (a0 a1 a2 b0 b1 b2 : Byte) :
    headerCheck (a0 ^^^ b0) (a1 ^^^ b1) (a2 ^^^ b2) = headerCheck a0 a1 a2 ^^^ headerCheck b0 b1 b2 := by
  have first : crcByte 0 (a0 ^^^ b0) = crcByte 0 a0 ^^^ crcByte 0 b0 := crcByte_xor 0 0 a0 b0
  simp only [headerCheck, first, crcByte_xor]

theorem wordPasses_iff (h : BitVec 32) : wordPasses h = true ↔
    h.extractLsb' 0 8 = headerCheck (h.extractLsb' 24 8) (h.extractLsb' 16 8) (h.extractLsb' 8 8) := beq_iff_eq

/-- An error in a passing header passes exactly when it passes by itself. -/
theorem wordPasses_xor {h : BitVec 32} (passes : wordPasses h = true) (error : BitVec 32) :
    wordPasses (h ^^^ error) = true ↔ wordPasses error = true := by
  rw [wordPasses_iff] at passes
  rw [wordPasses_iff, wordPasses_iff]
  simp only [BitVec.extractLsb'_xor, headerCheck_xor, passes]
  exact BitVec.xor_right_inj _

theorem singleBit_fails : ∀ i : Fin 32, wordPasses (1 <<< i.val) = false := by decide +kernel

/-- Settles O43: the check is linear, and no single bit passes. -/
theorem headerCheckDetectsSingleBitErrors : Obligations.HeaderCheckDetectsSingleBitErrors := by
  refine ⟨by decide +kernel, by decide +kernel, fun h i bit passes => ?_⟩
  rw [← Bool.not_eq_true, wordPasses_xor passes, singleBit_fails ⟨i, bit⟩]
  decide

/-! ## Delineation and the loss of the signal (R159 to R162) -/

theorem LinkUnit.receives_iff (k : LinkUnit) (d : Delineation) :
    k.receives d = true ↔ k.signal = true ∧ k.delin = d := by
  rw [LinkUnit.receives, Bool.and_eq_true, beq_iff_eq]

theorem LinkUnit.receives_false {k : LinkUnit} {d : Delineation} (idle : k.signal = false ∨ k.delin ≠ d) :
    k.receives d = false := by
  rw [Bool.eq_false_iff, ne_eq, LinkUnit.receives_iff]
  rintro ⟨signal, is⟩
  rcases idle with lost | other
  · rw [lost] at signal
    cases signal
  · exact other is

theorem LinkUnit.presyncPass_stays {k : LinkUnit} (few : k.goodRun ≠ 4) :
    k.presyncPass = { k with goodRun := k.goodRun + 1 } := if_neg (by omega)

theorem LinkUnit.presyncPass_enters {k : LinkUnit} (four : k.goodRun = 4) :
    k.presyncPass = { k with delin := .sync, goodRun := 5, badRun := 0 } := by
  refine (if_pos (by omega)).trans ?_
  rfl

/-- The link with a failing header in SYNC counted. -/
def headerFailed (k : LinkUnit) : LinkUnit :=
  { k with counters := { k.counters with headerErrors := min (k.counters.headerErrors + 1) 4294967295 } }

theorem State.failHeader_counts {s : State} {l : Side} (few : (s.link l).badRun ≠ 3) :
    s.failHeader l = s.setLink l { headerFailed (s.link l) with badRun := (s.link l).badRun + 1 } := by
  have notFourth : ¬(s.link l).badRun + 1 = 4 := by omega
  have counted : (s.link l).countFailure = { headerFailed (s.link l) with badRun := (s.link l).badRun + 1 } :=
    if_neg notFourth
  rw [State.failHeader, counted, decide_eq_false notFourth]
  rfl

theorem State.failHeader_drops {s : State} {l : Side} (three : (s.link l).badRun = 3) :
    s.failHeader l = (s.setLink l { headerFailed (s.link l) with
      delin := .hunt, boundary := false, badRun := 0, lossTicks := 0, lossDue := 0 }).latch (.linkDown l) := by
  have fourth : (s.link l).badRun + 1 = 4 := by omega
  have counted : (s.link l).countFailure = { headerFailed (s.link l) with
      delin := .hunt, boundary := false, badRun := 0, lossTicks := 0, lossDue := 0 } := if_pos fourth
  rw [State.failHeader, counted, decide_eq_true fourth]
  rfl

/-- What a tick does to a link's loss of signal. -/
theorem LinkUnit.tick_spec (begins : Bool) (k : LinkUnit) :
    (k.signal = false → k.delin = .sync → k.lossTicks < 63 →
      k.tick begins = { k with lossTicks := k.lossTicks + 1, positionDue := (k.tick begins).positionDue }) ∧
    (k.signal = false → k.delin = .sync → 63 ≤ k.lossTicks →
      k.tick begins = { k with
        lossTicks := 0, lossDue := k.lossDue + 1, positionDue := (k.tick begins).positionDue }) ∧
    ((k.signal = true ∨ k.delin ≠ .sync) → k.tick begins = { k with positionDue := (k.tick begins).positionDue }) := by
  refine ⟨fun lost sync few => ?_, fun lost sync many => ?_, fun idle => ?_⟩
  · have counts : (!k.signal && k.delin == .sync) = true := by simp [lost, sync]
    have below : ¬64 ≤ k.lossTicks + 1 := by omega
    have ticked : k.tick begins = { k with
        positionDue := k.positionDue || begins, lossTicks := k.lossTicks + 1 } :=
      (if_pos counts).trans (if_neg below)
    rw [ticked]
  · have counts : (!k.signal && k.delin == .sync) = true := by simp [lost, sync]
    have full : 64 ≤ k.lossTicks + 1 := by omega
    have ticked : k.tick begins = { k with
        positionDue := k.positionDue || begins, lossTicks := 0, lossDue := k.lossDue + 1 } :=
      (if_pos counts).trans (if_pos full)
    rw [ticked]
  · have still : ¬(!k.signal && k.delin == .sync) = true := by
      rcases idle with signal | other <;> simp [*]
    have ticked : k.tick begins = { k with positionDue := k.positionDue || begins } := if_neg still
    rw [ticked]

theorem State.setLink_setLink (s : State) (l : Side) (j k : LinkUnit) : (s.setLink l j).setLink l k = s.setLink l k := by
  cases l <;> rfl

theorem LinkUnit.loseSignal_presync {k : LinkUnit} (presync : k.delin = .presync) :
    k.loseSignal = { k with signal := false, lossTicks := 0, delin := .hunt, boundary := false, goodRun := 0 } :=
  if_pos presync

theorem LinkUnit.loseSignal_other {k : LinkUnit} (other : k.delin ≠ .presync) :
    k.loseSignal = { k with signal := false, lossTicks := 0 } := if_neg other

/-- Settles O44: each row by whether it is due, and by its own step where it is. -/
theorem delineationFindsTheBoundary : Obligations.DelineationFindsTheBoundary := by
  intro l s locked k
  refine ⟨fun h signal hunt => ⟨fun passes => ?found, fun fails => ?skipped⟩, fun h idle => ?noWindow,
    fun h idle => ?noHeader, fun lost => ?noLoss, fun idle => ?noCount, ?tick, fun h signal presync => ?presync,
    fun signal => ⟨fun presync => ?lostPresync, fun other => ?lost⟩, rfl, fun sync due few => ?counted,
    fun sync due three => ?dropped⟩
  case found =>
    have due : (k.receives .hunt && wordPasses h) = true := by
      rw [Bool.and_eq_true, LinkUnit.receives_iff]
      exact ⟨⟨signal, hunt⟩, passes⟩
    exact congrArg Host.Outcome.next (State.whenDue_of_due s _ _ locked due)
  case skipped =>
    have idle : (k.receives .hunt && wordPasses h) = false := by rw [fails, Bool.and_false]
    exact congrArg Host.Outcome.next (State.whenDue_of_not_due s _ idle)
  case noWindow =>
    have none : (k.receives .hunt && wordPasses h) = false := by rw [LinkUnit.receives_false idle, Bool.false_and]
    exact congrArg Host.Outcome.next (State.whenDue_of_not_due s _ none)
  case noHeader => exact congrArg Host.Outcome.next (State.whenDue_of_not_due s _ (LinkUnit.receives_false idle))
  case noLoss => exact congrArg Host.Outcome.next (if_neg (by rw [lost]; decide))
  case noCount =>
    have none : (k.delin == .sync && decide (0 < k.lossDue)) = false := by
      rcases idle with other | zero <;> simp [*]
    exact congrArg Host.Outcome.next (State.whenDue_of_not_due s _ none)
  case tick =>
    refine ⟨s.tick, exec_stcTick locked, ?_⟩
    rw [link_tick]
    exact LinkUnit.tick_spec _ k
  case presync =>
    have due : k.receives .presync = true := (LinkUnit.receives_iff k _).mpr ⟨signal, presync⟩
    have ran : exec (.presyncHeader l h) s =
        .next (s.setLink l (if wordPasses h then k.presyncPass else k.presyncFail)) :=
      congrArg Host.Outcome.next (State.whenDue_of_due s _ _ locked due)
    rw [ran]
    refine ⟨fun passes few => ?_, fun passes four => ?_, fun fails => ?_⟩
    · rw [if_pos passes, LinkUnit.presyncPass_stays few]
    · rw [if_pos passes, LinkUnit.presyncPass_enters four]
    · rw [if_neg (by rw [fails]; decide)]
      rfl
  case lostPresync =>
    refine congrArg Host.Outcome.next ((if_pos signal).trans ?_)
    rw [LinkUnit.loseSignal_presync presync]
  case lost =>
    refine congrArg Host.Outcome.next ((if_pos signal).trans ?_)
    rw [LinkUnit.loseSignal_other other]
  case counted =>
    have due : (k.delin == .sync && decide (0 < k.lossDue)) = true := by simp [*]
    refine congrArg Host.Outcome.next ((State.whenDue_of_due s _ _ locked due).trans ?_)
    rw [State.failHeader_counts (by rw [State.link_setLink_same]; exact few), State.link_setLink_same,
      State.setLink_setLink]
    rfl
  case dropped =>
    have due : (k.delin == .sync && decide (0 < k.lossDue)) = true := by simp [*]
    refine congrArg Host.Outcome.next ((State.whenDue_of_due s _ _ locked due).trans ?_)
    rw [State.failHeader_drops (by rw [State.link_setLink_same]; exact three), State.link_setLink_same,
      State.setLink_setLink]
    rfl

/-! ## Received cells (R162, R163) -/

theorem cellKind_toNat : ∀ b : Byte, (cellKind b).toNat = b.toNat / 16 := by
  unfold cellKind
  decide +kernel

theorem cellKind_eq {b : Byte} {kind : BitVec 4} : cellKind b = kind ↔ b.toNat / 16 = kind.toNat := by
  rw [← cellKind_toNat, BitVec.toNat_inj]

theorem exec_syncCell {l : Side} {s : State} (locked : s.power = .locked) (signal : (s.link l).signal = true)
    (sync : (s.link l).delin = .sync) (cell : CellBytes) : exec (.syncCell l cell) s = .next (s.syncCell l cell) :=
  congrArg Host.Outcome.next (State.whenDue_of_due s _ _ locked ((LinkUnit.receives_iff _ _).mpr ⟨signal, sync⟩))

section

variable {l : Side} {cell : CellBytes} {s : State}

theorem State.syncCell_passes (passes : headerCheck cell[0] cell[1] cell[2] = cell[3]) :
    s.syncCell l cell = (s.setLink l { s.link l with badRun := 0 }).handleCell l cell :=
  if_pos (beq_iff_eq.mpr passes.symm)

theorem State.syncCell_fails (fails : ¬headerCheck cell[0] cell[1] cell[2] = cell[3]) :
    s.syncCell l cell = s.failHeader l :=
  if_neg fun equal => fails (beq_iff_eq.mp equal).symm

theorem State.handleCell_request (kind : cell[0].toNat / 16 = 8) :
    s.handleCell l cell = s.request l (byteAt (cell.toList.drop 4) 1) (byteAt (cell.toList.drop 4) 0)
      (requestOf (cell.toList.drop 4)) (cell.toList.drop 4) :=
  if_pos (cellKind_eq.mpr kind)

theorem State.handleCell_idle (kind : cell[0].toNat / 16 = 0) : s.handleCell l cell = s := by
  have other : ¬cellKind cell[0] = kindRequest := fun is => by
    have eight := cellKind_eq.mp is
    rw [kind] at eight
    cases eight
  exact (if_neg other).trans (if_pos (cellKind_eq.mpr kind))

theorem State.handleCell_unknown (notIdle : cell[0].toNat / 16 ≠ 0) (notRequest : cell[0].toNat / 16 ≠ 8) :
    s.handleCell l cell = s.setLink l (s.link l).countUnknown :=
  (if_neg (mt cellKind_eq.mp notRequest)).trans (if_neg (mt cellKind_eq.mp notIdle))

end

section

variable {l : Side} {s : State} {q : Nat} {tag code : Byte} {r : Request} {payload : List Byte}

theorem Agent.ready_busy {g : Agent} {l : Side} {q : Nat} (busy : g.interval = some q) : g.ready l = false := by
  simp [Agent.ready, busy]

/-- A request that meets a busy Agent joins the queue. -/
theorem State.request_joins (busy : s.agent.interval = some q) (room : (s.agent.requests l).length < 4) :
    s.request l tag code r payload =
      { s with agent := s.agent.setRequests l (s.agent.requests l ++ [payload]) } := by
  have still (g : Agent) (u : State) (is : u.agent = g) (interval : g.interval = some q) : u.agentPoll = u := by
    rw [State.agentPoll, is, interval]
  have queued : (s.agent.setRequests l (s.agent.requests l ++ [payload])).interval = some q := by
    cases l <;> exact busy
  refine (if_neg ?_).trans ((if_pos room).trans (still _ _ rfl queued))
  rw [Agent.ready_busy busy]
  decide

/-- A request that meets a busy Agent and a full queue is discarded. -/
theorem State.request_discards (busy : s.agent.interval = some q) (full : 4 ≤ (s.agent.requests l).length) :
    s.request l tag code r payload = s.discardRequest l := by
  have noRoom : ¬(s.agent.requests l).length < 4 := by omega
  refine (if_neg ?_).trans (if_neg noRoom)
  rw [Agent.ready_busy busy]
  decide

end

/-- Settles O45, by the header and by the kind of the cell. -/
theorem cellsInSync : Obligations.CellsInSync := by
  intro l cell s locked signal sync k errors passes kind result
  have ran : result = .next (s.syncCell l cell) := exec_syncCell locked signal sync cell
  rw [ran]
  refine ⟨fun fails few => ?counted, fun fails three => ?dropped, fun passed idle => ?idle,
    fun passed notIdle notRequest => ?unknown, fun q passed request busy room => ?joins,
    fun q passed request busy full => ?discarded⟩
  case counted =>
    rw [State.syncCell_fails fails, State.failHeader_counts few]
    rfl
  case dropped =>
    rw [State.syncCell_fails fails, State.failHeader_drops three]
    rfl
  case idle => rw [State.syncCell_passes passed, State.handleCell_idle idle]
  case unknown =>
    rw [State.syncCell_passes passed, State.handleCell_unknown notIdle notRequest, State.link_setLink_same,
      State.setLink_setLink]
    rfl
  case joins =>
    have busy' : (s.setLink l { k with badRun := 0 }).agent.interval = some q := by cases l <;> exact busy
    have room' : ((s.setLink l { k with badRun := 0 }).agent.requests l).length < 4 := by cases l <;> exact room
    rw [State.syncCell_passes passed, State.handleCell_request request, State.request_joins busy' room']
    cases l <;> rfl
  case discarded =>
    have busy' : (s.setLink l { k with badRun := 0 }).agent.interval = some q := by cases l <;> exact busy
    have full' : 4 ≤ ((s.setLink l { k with badRun := 0 }).agent.requests l).length := by cases l <;> exact full
    rw [State.syncCell_passes passed, State.handleCell_request request, State.request_discards busy' full',
      State.discardRequest, State.link_setLink_same, State.setLink_setLink]
    rfl

end Sys2Proof.Machine
end

section
/-! SUPPORT. No request begins a cell position or takes one (R159, R164): what becomes of the links while a request is
served. -/

namespace Sys2Proof.Machine

open Sys2Proof

/-- From s to t no link's cell position has begun or been taken. -/
abbrev KeepsPositions (s t : State) : Prop := ∀ m, (t.link m).positionDue = (s.link m).positionDue

theorem KeepsPositions.of_links {s t : State} (linkA : t.linkA = s.linkA) (linkB : t.linkB = s.linkB) :
    KeepsPositions s t := by
  intro m
  cases m with
  | a => exact congrArg LinkUnit.positionDue linkA
  | b => exact congrArg LinkUnit.positionDue linkB

theorem KeepsPositions.refl (s : State) : KeepsPositions s s := fun _ => rfl

theorem KeepsPositions.trans {s t u : State} (first : KeepsPositions s t) (second : KeepsPositions t u) :
    KeepsPositions s u := fun m => (second m).trans (first m)

theorem positions_foldl {α : Type} {act : State → α → State} (keeps : ∀ s a, KeepsPositions s (act s a))
    (items : List α) (s : State) : KeepsPositions s (items.foldl act s) := by
  induction items generalizing s with
  | nil => exact KeepsPositions.refl s
  | cons a items ih => exact (keeps s a).trans (ih _)

/-! ## Slots -/

theorem positions_slotSet (s : State) (p : SlotSetParams) : KeepsPositions s (s.slotSet p).state := by
  unfold State.slotSet
  split
  · exact KeepsPositions.refl s
  · split
    · exact KeepsPositions.refl s
    · split
      · exact KeepsPositions.refl s
      · exact positions_foldl (act := State.program p) (fun s n => KeepsPositions.of_links rfl rfl) _ s

theorem positions_enableSlot (s : State) (n : SlotId) : KeepsPositions s (s.enableSlot n).2 := by
  unfold State.enableSlot
  split
  · exact KeepsPositions.refl s
  · split
    · exact KeepsPositions.refl s
    · split
      · exact KeepsPositions.refl s
      · exact KeepsPositions.of_links rfl rfl

theorem positions_disableSlot (s : State) (n : SlotId) : KeepsPositions s (s.disableSlot n).2 := by
  unfold State.disableSlot
  split
  · exact KeepsPositions.of_links rfl rfl
  · exact KeepsPositions.refl s

theorem positions_retuneSlot (s : State) (n : SlotId) : KeepsPositions s (s.retuneSlot n).2 := by
  unfold State.retuneSlot
  split
  · split
    · exact KeepsPositions.of_links rfl rfl
    · exact KeepsPositions.of_links rfl rfl
  · exact KeepsPositions.refl s

theorem positions_controlSlots {act : State → SlotId → Status × State} (keeps : ∀ s n, KeepsPositions s (act s n).2)
    (ns : List SlotId) (s : State) : KeepsPositions s (s.controlSlots act 0 ns).state := by
  refine controlSlots_keeps (Kept := KeepsPositions s) (fun u n v _ kept acts => ?_) 0 s (KeepsPositions.refl s)
  have step := keeps u n
  rw [acts] at step
  exact kept.trans step

theorem positions_slotControl (s : State) (mask action : Byte) : KeepsPositions s (s.slotControl mask action).state := by
  unfold State.slotControl
  split
  · exact KeepsPositions.refl s
  · split
    · exact positions_controlSlots positions_enableSlot _ s
    · split
      · exact positions_controlSlots positions_disableSlot _ s
      · split
        · exact positions_controlSlots positions_retuneSlot _ s
        · exact KeepsPositions.refl s

/-! ## The Route Table and Packet Memory -/

theorem positions_addRoutes (ds : List RouteDesc) (s : State) : KeepsPositions s (s.addRoutes ds).1 := by
  induction ds generalizing s with
  | nil => exact KeepsPositions.refl s
  | cons d ds ih =>
    have step : KeepsPositions s (s.addRoute d).1 := by
      rw [addRoute_frame]
      exact KeepsPositions.of_links rfl rfl
    exact step.trans (ih _)

theorem positions_removeRoutes (ks : List RouteKey) (s : State) : KeepsPositions s (s.removeRoutes ks).1 := by
  rw [State.removeRoutes_state]
  refine positions_foldl (fun s k => ?_) ks s
  unfold State.removeRoute
  split
  · exact KeepsPositions.of_links rfl rfl
  · exact KeepsPositions.refl s

theorem positions_assignBank (s : State) (b : Fin 8) (o : Owner) : KeepsPositions s (s.assignBank b o).2 := by
  unfold State.assignBank
  split
  · exact KeepsPositions.refl s
  · split
    · exact KeepsPositions.refl s
    · split
      · intro m
        rw [State.link_resumeCaptures, State.link_setBank]
      · intro m
        rw [State.link_setBank]

/-! ## Egresses and the datapath reset -/

theorem positions_startEgress (s : State) (e : Side) : KeepsPositions s (s.startEgress e).2 := by
  unfold State.startEgress
  split
  · exact KeepsPositions.refl s
  · exact KeepsPositions.refl s
  · split
    · exact KeepsPositions.refl s
    · intro m
      rw [State.link_setEgress]

theorem positions_stopEgress (s : State) (e : Side) : KeepsPositions s (s.stopEgress e) := by
  unfold State.stopEgress
  split
  · intro m
    rw [State.link_afterFree, State.link_setEgress]
  · exact KeepsPositions.refl s

theorem positions_zeroCounters (s : State) : KeepsPositions s s.zeroCounters := fun m => by cases m <;> rfl

theorem positions_datapathReset (s : State) : KeepsPositions s s.datapathReset := by
  have quiet : KeepsPositions s s.quiet := KeepsPositions.of_links rfl rfl
  have drained (u : State) : KeepsPositions u u.drainAll :=
    positions_foldl (fun u b m => by rw [State.link_drainTest]) allBanks u
  have cleared (u : State) : KeepsPositions u u.clearRecords := KeepsPositions.of_links rfl rfl
  exact ((((quiet.trans (positions_stopEgress _ .a)).trans (positions_stopEgress _ .b)).trans (drained _)).trans
    (positions_zeroCounters _)).trans (cleared _)

theorem positions_egressControl (s : State) (egress action : Byte) :
    KeepsPositions s (s.egressControl egress action).state := by
  unfold State.egressControl
  split
  · exact KeepsPositions.of_links rfl rfl
  · split
    · exact positions_startEgress s _
    · split
      · exact positions_stopEgress s _
      · exact KeepsPositions.refl s

theorem positions_egressSet (s : State) (p : EgressSetParams) : KeepsPositions s (s.egressSet p).state := by
  unfold State.egressSet
  split
  · exact KeepsPositions.refl s
  · split
    · exact KeepsPositions.refl s
    · split
      · exact KeepsPositions.refl s
      · split
        · exact KeepsPositions.refl s
        · intro m
          exact congrArg LinkUnit.positionDue (State.link_setEgress s _ _ m)

/-! ## Statistics and captures -/

theorem positions_statsSnapshot (s : State) (clear : Byte) : KeepsPositions s (s.statsSnapshot clear).state := by
  unfold State.statsSnapshot
  split
  · exact KeepsPositions.refl s
  · next c _ =>
    cases c with
    | false => exact KeepsPositions.of_links rfl rfl
    | true => exact (KeepsPositions.of_links (t := s.takeSnapshot) rfl rfl).trans (positions_zeroCounters _)

theorem positions_captureStart (s : State) (l : Side) (context slot : Byte) (pid : BitVec 16) (mode n : Byte) :
    KeepsPositions s (s.captureStart l context slot pid mode n).state := by
  unfold State.captureStart
  split
  · exact KeepsPositions.refl s
  · split
    · exact KeepsPositions.refl s
    · split
      · exact KeepsPositions.refl s
      · split
        · exact KeepsPositions.refl s
        · intro m
          exact congrArg LinkUnit.positionDue (State.link_setCapture s _ _ m)

theorem positions_captureCancel (s : State) (context : Byte) : KeepsPositions s (s.captureCancel context).state := by
  unfold State.captureCancel
  split
  · exact KeepsPositions.of_links rfl rfl
  · split
    · intro m
      exact congrArg LinkUnit.positionDue (State.link_setCapture s _ _ m)
    · exact KeepsPositions.refl s

/-! ## Every request -/

theorem positions_applyRequest (s : State) (l : Side) (r : Request) : KeepsPositions s (s.applyRequest l r).state := by
  cases r with
  | describe => exact KeepsPositions.refl s
  | reset => exact positions_datapathReset s
  | status clear => exact KeepsPositions.of_links rfl rfl
  | alertConfig enable a b =>
    change KeepsPositions s (s.alertConfig enable a b).state
    unfold State.alertConfig
    split <;> exact KeepsPositions.of_links rfl rfl
  | statsSnapshot clear => exact positions_statsSnapshot s clear
  | statsRead page =>
    change KeepsPositions s (s.statsRead page).state
    unfold State.statsRead
    split
    · exact KeepsPositions.refl s
    · split <;> exact KeepsPositions.refl s
  | frontRead => exact KeepsPositions.refl s
  | auxSet m0 m1 protection =>
    change KeepsPositions s (s.auxSet m0 m1 protection).state
    unfold State.auxSet
    split <;> exact KeepsPositions.of_links rfl rfl
  | auxWrite mask v0 v1 =>
    change KeepsPositions s (s.auxWrite mask v0 v1).state
    unfold State.auxWrite
    split <;> exact KeepsPositions.of_links rfl rfl
  | auxRead => exact KeepsPositions.refl s
  | slotSet p => exact positions_slotSet s p
  | slotControl mask action => exact positions_slotControl s mask action
  | slotRead slot page =>
    change KeepsPositions s (s.slotRead slot page).state
    unfold State.slotRead
    split
    · exact KeepsPositions.refl s
    · split <;> exact KeepsPositions.refl s
  | routeAdd count d0 d1 d2 =>
    change KeepsPositions s (s.routeAdd count d0 d1 d2).state
    unfold State.routeAdd
    split
    · exact positions_addRoutes _ s
    · exact KeepsPositions.refl s
  | routeRemove count keys =>
    change KeepsPositions s (s.routeRemove count keys).state
    unfold State.routeRemove
    split
    · exact positions_removeRoutes _ s
    · exact KeepsPositions.refl s
  | routeClear => exact KeepsPositions.of_links rfl rfl
  | routeRead start => exact KeepsPositions.refl s
  | bankAssign bank owner =>
    change KeepsPositions s (s.bankAssign bank owner).state
    unfold State.bankAssign
    split
    · exact KeepsPositions.of_links rfl rfl
    · split
      · exact KeepsPositions.refl s
      · exact positions_assignBank s _ _
  | bankRead => exact KeepsPositions.refl s
  | egressSet p => exact positions_egressSet s p
  | egressControl egress action => exact positions_egressControl s egress action
  | egressRead egress page pid =>
    change KeepsPositions s (s.egressRead egress page pid).state
    rw [State.egressRead_state]
    exact KeepsPositions.of_links rfl rfl
  | captureStart context slot pid mode n => exact positions_captureStart s l context slot pid mode n
  | captureCancel context => exact positions_captureCancel s context
  | unknown code => exact KeepsPositions.refl s

/-- An Agent that looks for its next request takes no cell position. -/
theorem positions_agentPoll (s : State) : KeepsPositions s s.agentPoll := by
  have serves (l : Side) : KeepsPositions s (s.serveHead l) := by
    unfold State.serveHead
    split
    · exact KeepsPositions.refl s
    · next p rest _ =>
      have removed : KeepsPositions s { s with agent := s.agent.setRequests l rest } := KeepsPositions.of_links rfl rfl
      exact removed.trans ((positions_applyRequest _ l (requestOf p)).trans (KeepsPositions.of_links rfl rfl))
  unfold State.agentPoll
  split
  · exact KeepsPositions.refl s
  · split
    · exact serves _
    · exact KeepsPositions.refl s

end Sys2Proof.Machine
end

section
/-! SUPPORT. The downstream arbiter (R157, R164 to R166): the cell sent by each step of its choice, and what it leaves. -/

namespace Sys2Proof.Machine

open Sys2Proof

/-! ## A cell on the line (R157, R166) -/

/-- The link l with the cell position taken and a cell of the header bytes b0 and b1 sent. -/
def State.sentCell (s : State) (l : Side) (b0 b1 : Byte) (payload : List Byte) : State :=
  s.setLink l { s.link l with
    positionDue := false, seq := (s.link l).seq + 1
    line := [b0, b1, (s.link l).seq, headerCheck b0 b1 (s.link l).seq] ++ payload }

section

variable {s : State} {l : Side}

theorem State.send_begin (s : State) (l : Side) (kind flags : BitVec 4) (b1 : Byte) (payload : List Byte) :
    (s.beginPosition l).send l kind flags b1 payload = s.sentCell l (kind ++ flags) b1 payload := by
  cases l <;> rfl

theorem State.link_sentCell (s : State) (l : Side) (b0 b1 : Byte) (payload : List Byte) :
    ((s.sentCell l b0 b1 payload).link l).positionDue = false := by
  rw [State.sentCell, State.link_setLink_same]

theorem exec_cellPosition (locked : s.power = .locked) (due : (s.link l).positionDue = true) :
    exec (.cellPosition l) s = .next ((s.beginPosition l).arbitrate l) :=
  congrArg Host.Outcome.next (State.whenDue_of_due s _ _ locked due)

theorem State.beginPosition_same (s : State) (l : Side) :
    (∀ e, (s.beginPosition l).egress e = s.egress e) ∧ (s.beginPosition l).events = s.events ∧
    (s.beginPosition l).agent = s.agent ∧ (∀ c, (s.beginPosition l).capture c = s.capture c) ∧
    ((s.beginPosition l).link l) = { s.link l with positionDue := false } := by
  cases l <;> exact ⟨fun e => by cases e <;> rfl, rfl, rfl, fun c => by cases c <;> rfl, rfl⟩

/-! ## The five steps of the choice (R164) -/

theorem State.arbitrate_stream {c : StreamCell} {rest : List StreamCell} (waits : (s.egress l).txBuffer = c :: rest) :
    s.arbitrate l = s.sendStream l c rest := by
  rw [State.arbitrate, waits]

theorem State.arbitrate_alert (none : (s.egress l).txBuffer = []) (alert : s.events.alertPending l = true) :
    s.arbitrate l = s.sendAlert l := by
  simp only [State.arbitrate, none, if_pos alert]

theorem State.arbitrate_reply {r : Reply} {rest : List Reply} (none : (s.egress l).txBuffer = [])
    (quiet : ¬s.events.alertPending l = true) (waits : s.agent.replies l = r :: rest) :
    s.arbitrate l = s.sendReply l r rest := by
  simp only [State.arbitrate, none, if_neg quiet, waits]

theorem State.arbitrate_capture {c : CtxId} (none : (s.egress l).txBuffer = [])
    (quiet : ¬s.events.alertPending l = true) (noReply : s.agent.replies l = []) (chosen : s.captureChoice l = some c) :
    s.arbitrate l = s.sendCapture l c := by
  simp only [State.arbitrate, none, if_neg quiet, noReply, chosen]

theorem State.arbitrate_idle (none : (s.egress l).txBuffer = []) (quiet : ¬s.events.alertPending l = true)
    (noReply : s.agent.replies l = []) (noCapture : s.captureChoice l = .none) : s.arbitrate l = s.sendIdle l := by
  simp only [State.arbitrate, none, if_neg quiet, noReply, noCapture]

/-! ## The context served (R165) -/

theorem State.captureChoice_of_offers {c : CtxId} (offers : (s.capture c).offers l = true)
    (turn : (s.capture (otherContext c)).offers l = false ∨ (s.link l).capturePointer = otherContext c) :
    s.captureChoice l = some c := by
  have twice : ∀ d, otherContext (otherContext d) = d := by intro d; cases d <;> rfl
  have either : (s.link l).capturePointer = c ∨ (s.link l).capturePointer = otherContext c := by
    cases (s.link l).capturePointer <;> cases c <;> simp [otherContext]
  rw [State.captureChoice]
  rcases either with here | there
  · have idle : (s.capture (otherContext c)).offers l = false := by
      rcases turn with idle | there
      · exact idle
      · rw [here] at there
        cases c <;> cases there
    rw [here, idle, twice, offers]
    rfl
  · rw [there, twice, offers]
    rfl

theorem State.captureChoice_none (none0 : (s.capture .c0).offers l = false) (none1 : (s.capture .c1).offers l = false) :
    s.captureChoice l = none := by
  rw [State.captureChoice]
  cases (s.link l).capturePointer <;> simp [otherContext, none0, none1]

end

/-! ## The stream (R141, R142) -/

theorem Egress.afterCell_plain {x : Egress} (plain : x.assembly.isEnd = false) (rest : List StreamCell) :
    x.afterCell rest = { x with
      txBuffer := rest
      run := if x.run = .stopping ∧ rest = [] ∧ x.assembly.bytes = [] then .stopped else x.run } := by
  have partly : ¬x.assembly.isEnd = true := by rw [plain]; decide
  simp only [Egress.afterCell, Egress.settleStop, if_neg partly]
  split <;> rfl

theorem Egress.afterCell_waiting {x : Egress} (waits : x.assembly.isEnd = true) (rest : List StreamCell) :
    x.afterCell rest = { x with
      txBuffer := rest ++ [⟨x.assembly.bytes, x.assembly.startOffset, true⟩], assembly := ⟨[], 255, false⟩ } := by
  simp only [Egress.afterCell, Egress.settleStop, if_pos waits]
  exact if_neg fun stops => by simp at stops

theorem streamHeader (c : StreamCell) : kindStream ++ c.flags = (if c.isEnd then 0x11 else 0x10 : Byte) := by
  rw [StreamCell.flags]
  cases c.isEnd <;> rfl

theorem State.sendStream_eq (s : State) (l : Side) (c : StreamCell) (rest : List StreamCell) :
    (s.beginPosition l).sendStream l c rest =
      (s.sentCell l (if c.isEnd then 0x11 else 0x10) c.startOffset c.payload).setEgress l
        ((s.egress l).afterCell rest) := by
  rw [← streamHeader]
  cases l <;> rfl

/-! ## Captured packets and records (R171, R193) -/

theorem padTo_append {n : Nat} {head : List Byte} (fits : head.length ≤ n) (tail : List Byte) :
    padTo n (head ++ tail) = head ++ padTo (n - head.length) tail := by
  rw [padTo, padTo, List.append_assoc, List.take_append, List.take_of_length_le fits]
  congr 1
  rw [List.take_append, List.take_append, List.take_replicate, List.take_replicate]
  congr 2
  omega

theorem fragmentPayload_eq (fragment index : Nat) (p : Packet) :
    fragmentPayload fragment index p = BitVec.ofNat 8 fragment :: (beBytes 2 index ++ [0] ++
      padTo 56 ((p.toList.drop (56 * fragment)).take 56)) := by
  have four : (beBytes 1 fragment ++ beBytes 2 index ++ [0]).length ≤ 60 := by simp
  have long : (beBytes 1 fragment ++ beBytes 2 index ++ [0]).length = 4 := by simp
  rw [fragmentPayload, padTo_append four, long, beBytes_one]
  rfl

/-- The state with a capture cell of context c sent and the pointer set to it. -/
def State.sentCapture (s : State) (l : Side) (c : CtxId) : State :=
  s.setLink l { s.link l with
    positionDue := false, seq := (s.link l).seq + 1, capturePointer := c
    line := [0x30, contextByte c, (s.link l).seq, headerCheck 0x30 (contextByte c) (s.link l).seq] ++
      (s.capture c).cell }

theorem State.sendCapture_eq (s : State) (l : Side) (c : CtxId) :
    (s.beginPosition l).sendCapture l c = (s.sentCapture l c).captureSent c := by
  cases l <;> cases c <;> rfl

theorem State.capture_sentCapture (s : State) (l : Side) (c d : CtxId) :
    (s.sentCapture l c).capture d = s.capture d := State.capture_setLink s l _ d

section

variable {u : State} {c : CtxId}

theorem State.captureSent_fragment {id : BufferId} {i : Nat} {p : Packet} {rest : List PendingItem}
    (head : (u.capture c).pending = .packet id i p :: rest) (more : (u.capture c).headFragment ≠ 3) :
    u.captureSent c = u.setCapture c { u.capture c with headFragment := (u.capture c).headFragment + 1 } := by
  simp only [State.captureSent, head, if_neg more]

theorem State.captureSent_last {id : BufferId} {i : Nat} {p : Packet} {rest : List PendingItem}
    (head : (u.capture c).pending = .packet id i p :: rest) (last : (u.capture c).headFragment = 3) :
    u.captureSent c = (u.setCapture c { u.capture c with pending := rest, headFragment := 0 }).afterFree [id] := by
  simp only [State.captureSent, head, if_pos last]

theorem State.captureSent_round {captured missed round : Nat} {rest : List PendingItem}
    (head : (u.capture c).pending = .roundEnd captured missed round :: rest) :
    u.captureSent c = (u.setCapture c { u.capture c with pending := rest }).latch (.captureEnd c) := by
  simp only [State.captureSent, head]

theorem State.captureSent_end {r : EndReason} {captured missed round : Nat} {truncated : Bool}
    {rest : List PendingItem} (head : (u.capture c).pending = .endRecord r captured missed round truncated :: rest) :
    u.captureSent c = (u.setCapture c { u.capture c with pending := rest, state := .idle }).latch (.captureEnd c) := by
  simp only [State.captureSent, head]

theorem CaptureContext.cell_packet {x : CaptureContext} {id : BufferId} {i : Nat} {p : Packet}
    {rest : List PendingItem} (head : x.pending = .packet id i p :: rest) :
    x.cell = BitVec.ofNat 8 x.headFragment :: (beBytes 2 i ++ [0] ++
      padTo 56 ((p.toList.drop (56 * x.headFragment)).take 56)) := by
  rw [CaptureContext.cell, head]
  exact fragmentPayload_eq _ _ _

theorem CaptureContext.cell_round {x : CaptureContext} {captured missed round : Nat} {rest : List PendingItem}
    (head : x.pending = .roundEnd captured missed round :: rest) :
    x.cell = padTo 60 ([255, 0, 0, 0, 6] ++ beBytes 4 captured ++ beBytes 4 missed ++ beBytes 4 round ++ [0]) := by
  rw [CaptureContext.cell, head]
  rfl

theorem CaptureContext.cell_end {x : CaptureContext} {r : EndReason} {captured missed round : Nat} {truncated : Bool}
    {rest : List PendingItem} (head : x.pending = .endRecord r captured missed round truncated :: rest) :
    x.cell = padTo 60 ([255, 0, 0, 0, endReasonCode r] ++ beBytes 4 captured ++ beBytes 4 missed ++ beBytes 4 round ++
      [if truncated then 1 else 0]) := by
  rw [CaptureContext.cell, head]
  cases truncated <;> rfl

end

theorem CaptureContext.resumed_eq (x : CaptureContext) (free : Prop) [Decidable free] :
    (if x.state = .suspended ∧ free then { x with state := .active } else x) =
      { x with state := if x.state = .suspended ∧ free then .active else x.state } := by
  split <;> rfl

/-- What the free of a context's head buffer leaves (R123, R126, R189). -/
theorem State.afterFree_setCapture (u : State) (c : CtxId) (y : CaptureContext) (id : BufferId) :
    let t := (u.setCapture c y).afterFree [id]
    t = { u with banks := t.banks, capture0 := t.capture0, capture1 := t.capture1 } ∧
    (∀ b : Fin 8, (b ≠ id.bank ∨ u.banks[b].state = .active) → t.banks[b] = u.banks[b]) ∧
    (∀ o, u.banks[id.bank].state = .draining o →
      t.banks[id.bank] = if t.bankFree id.bank = 128 then ⟨o, .active⟩ else u.banks[id.bank]) ∧
    t.capture c = { y with state := if y.state = .suspended ∧ 1 ≤ t.poolFree .capture then .active else y.state } ∧
    t.capture (otherContext c) = { u.capture (otherContext c) with
      state := if (u.capture (otherContext c)).state = .suspended ∧ 1 ≤ t.poolFree .capture then .active
        else (u.capture (otherContext c)).state } := by
  intro t
  have banks : (u.setCapture c y).banks = u.banks := by cases c <;> rfl
  have bank (b : Fin 8) := (u.setCapture c y).bank_afterFree [id] b
  obtain ⟨-, -, captures⟩ := (u.setCapture c y).afterFree_spec [id]
  have here : (u.setCapture c y).capture c = y := by cases c <;> rfl
  have there : (u.setCapture c y).capture (otherContext c) = u.capture (otherContext c) := by cases c <;> rfl
  refine ⟨?frame, fun b kept => ?kept, fun o draining => ?draining, ?here, ?there⟩
  case frame =>
    have frame := (u.setCapture c y).afterFree_one_frame [id]
    refine frame.trans ?_
    cases c <;> rfl
  case kept =>
    obtain ⟨active, drains⟩ := bank b
    rw [banks] at active drains
    cases state : u.banks[b].state with
    | active => exact active state
    | draining o =>
      obtain ⟨-, stays⟩ := drains o state
      have other : b ≠ id.bank := kept.resolve_right (by rw [state]; exact fun h => by cases h)
      exact stays (.inl (by simpa using Ne.symm other))
  case draining =>
    obtain ⟨-, drains⟩ := bank id.bank
    rw [banks] at drains
    obtain ⟨passes, stays⟩ := drains o draining
    by_cases free : t.bankFree id.bank = 128
    · rw [if_pos free]
      exact passes ⟨id, by simp, rfl⟩ free
    · rw [if_neg free]
      exact stays (.inr free)
  case here =>
    refine (captures c).trans ?_
    rw [here]
    exact CaptureContext.resumed_eq y _
  case there =>
    refine (captures (otherContext c)).trans ?_
    rw [there]
    exact CaptureContext.resumed_eq _ _

/-- What a capture cell leaves, by the head of the pending list. -/
theorem State.captureSent_spec (s : State) (l : Side) (c : CtxId) :
    let z := s.capture c
    let u := s.sentCapture l c
    let t := u.captureSent c
    (∀ id i p rest, z.pending = .packet id i p :: rest →
      z.cell = BitVec.ofNat 8 z.headFragment :: (beBytes 2 i ++ [0] ++
        padTo 56 ((p.toList.drop (56 * z.headFragment)).take 56)) ∧
      (z.headFragment ≠ 3 → t = u.setCapture c { z with headFragment := z.headFragment + 1 }) ∧
      (z.headFragment = 3 →
        t = { u with banks := t.banks, capture0 := t.capture0, capture1 := t.capture1 } ∧
        (∀ b : Fin 8, (b ≠ id.bank ∨ s.banks[b].state = .active) → t.banks[b] = s.banks[b]) ∧
        (∀ o, s.banks[id.bank].state = .draining o →
          t.banks[id.bank] = if t.bankFree id.bank = 128 then ⟨o, .active⟩ else s.banks[id.bank]) ∧
        t.capture c = { z with
          pending := rest, headFragment := 0
          state := if z.state = .suspended ∧ 1 ≤ t.poolFree .capture then .active else z.state } ∧
        t.capture (otherContext c) = { s.capture (otherContext c) with
          state := if (s.capture (otherContext c)).state = .suspended ∧ 1 ≤ t.poolFree .capture then .active
            else (s.capture (otherContext c)).state })) ∧
    (∀ captured missed round rest, z.pending = .roundEnd captured missed round :: rest →
      z.cell = padTo 60 ([255, 0, 0, 0, 6] ++ beBytes 4 captured ++ beBytes 4 missed ++ beBytes 4 round ++ [0]) ∧
      t = { u.setCapture c { z with pending := rest } with events := latchEvent (.captureEnd c) s.events }) ∧
    (∀ r captured missed round truncated rest, z.pending = .endRecord r captured missed round truncated :: rest →
      z.cell = padTo 60 ([255, 0, 0, 0, endReasonCode r] ++ beBytes 4 captured ++ beBytes 4 missed ++
        beBytes 4 round ++ [if truncated then 1 else 0]) ∧
      t = { u.setCapture c { z with pending := rest, state := .idle } with
        events := latchEvent (.captureEnd c) s.events }) := by
  intro z u t
  have same : u.capture c = z := State.capture_sentCapture s l c c
  refine ⟨fun id i p rest head => ⟨CaptureContext.cell_packet head, fun more => ?more, fun last => ?last⟩,
    fun captured missed round rest head => ⟨CaptureContext.cell_round head, ?round⟩,
    fun r captured missed round truncated rest head => ⟨CaptureContext.cell_end head, ?ends⟩⟩
  case more =>
    rw [← same] at head more ⊢
    exact State.captureSent_fragment head more
  case round =>
    rw [← same] at head ⊢
    refine (State.captureSent_round head).trans ?_
    cases l <;> cases c <;> rfl
  case ends =>
    rw [← same] at head ⊢
    refine (State.captureSent_end head).trans ?_
    cases l <;> cases c <;> rfl
  case last =>
    rw [← same] at head last
    have sent : t = (u.setCapture c { u.capture c with pending := rest, headFragment := 0 }).afterFree [id] :=
      State.captureSent_last head last
    rw [same] at sent
    obtain ⟨frame, others, drains, here, there⟩ :=
      u.afterFree_setCapture c { z with pending := rest, headFragment := 0 } id
    rw [← sent] at frame others drains here there
    have banks : u.banks = s.banks := by cases l <;> rfl
    rw [banks] at others drains
    have other : u.capture (otherContext c) = s.capture (otherContext c) := State.capture_sentCapture s l c _
    rw [other] at there
    exact ⟨frame, others, drains, here, there⟩

/-- An Agent with a reply gone takes a waiting request of an eligible link. -/
theorem State.agentPoll_afterReply (s : State) (l : Side) (r : Reply) (rest : List Reply) :
    let u : State := { s.sentCell l 0x20 r.tag ([r.code, r.tag, statusCode r.status, r.summary] ++ r.data) with
      agent := s.agent.setReplies l rest }
    let eligible := fun m => s.agent.requests m ≠ [] ∧ (u.agent.replies m).length < 8
    ((s.agent.interval.isSome = true ∨ (s.agent.requestsA = [] ∧ s.agent.requestsB = [])) → u.agentPoll = u) ∧
    (s.agent.interval = none → ¬eligible .a → ¬eligible .b → u.agentPoll = u) ∧
    ∀ m p more, s.agent.interval = none → eligible m →
      (eligible (otherSide m) → s.agent.lastServed = otherSide m) → s.agent.requests m = p :: more →
      u.agentPoll = u.taken m p more := by
  intro u eligible
  have interval : u.agent.interval = s.agent.interval := by cases l <;> rfl
  have requests (m : Side) : u.agent.requests m = s.agent.requests m := by cases l <;> cases m <;> rfl
  have last : u.agent.lastServed = s.agent.lastServed := by cases l <;> rfl
  have eligibleIff (m : Side) : u.agent.eligible m = true ↔ eligible m := by rw [Agent.eligible_iff, requests]
  have idles (idle : u.agent.interval = none) (noA : ¬eligible .a) (noB : ¬eligible .b) : u.agentPoll = u :=
    State.agentPoll_idles idle (Bool.eq_false_iff.mpr (mt (eligibleIff .a).mp noA))
      (Bool.eq_false_iff.mpr (mt (eligibleIff .b).mp noB))
  refine ⟨fun still => ?still, fun idle noA noB => idles (interval.trans idle) noA noB,
    fun m p more idle chosen turn waits => ?takes⟩
  case still =>
    cases running : u.agent.interval with
    | some q => rw [State.agentPoll, running]
    | none =>
      rcases still with busy | ⟨emptyA, emptyB⟩
      · rw [← interval, running] at busy
        cases busy
      · exact idles running (fun h => h.1 emptyA) fun h => h.1 emptyB
  case takes =>
    exact State.agentPoll_takes (interval.trans idle) ((eligibleIff m).mpr chosen)
      (fun other => last.trans (turn ((eligibleIff _).mp other))) ((requests m).trans waits)

theorem State.sendReply_eq (s : State) (l : Side) (r : Reply) (rest : List Reply) :
    (s.beginPosition l).sendReply l r rest = ({ s.sentCell l 0x20 r.tag
      ([r.code, r.tag, statusCode r.status, r.summary] ++ r.data) with
        agent := s.agent.setReplies l rest } : State).agentPoll := by
  cases l <;> rfl

/-! ## The cell position taken -/

theorem positions_send (s : State) (l : Side) (kind flags : BitVec 4) (b1 : Byte) (payload : List Byte) :
    KeepsPositions s (s.send l kind flags b1 payload) := fun m => by cases l <;> cases m <;> rfl

theorem positions_captureSent (s : State) (c : CtxId) : KeepsPositions s (s.captureSent c) := by
  unfold State.captureSent
  dsimp only
  split
  · exact KeepsPositions.refl s
  · split
    · intro m
      rw [State.link_afterFree, State.link_setCapture]
    · intro m
      rw [State.link_setCapture]
  · intro m
    rw [State.link_latch, State.link_setCapture]
  · intro m
    rw [State.link_latch, State.link_setCapture]

theorem positions_arbitrate (s : State) (l : Side) : KeepsPositions s (s.arbitrate l) := by
  unfold State.arbitrate
  split
  · refine KeepsPositions.trans (t := s.setEgress l _) (fun m => ?_) (positions_send _ l _ _ _ _)
    rw [State.link_setEgress]
  · split
    · exact (KeepsPositions.of_links (t := { s with events := s.events.alertSent l }) rfl rfl).trans
        (positions_send _ l _ _ _ _)
    · split
      · next r rest _ =>
        exact ((KeepsPositions.of_links (t := { s with agent := s.agent.setReplies l rest }) rfl rfl).trans
          (positions_send _ l _ _ _ _)).trans (positions_agentPoll _)
      · split
        · next c _ =>
          have pointed : KeepsPositions s (s.setLink l { s.link l with capturePointer := c }) :=
            fun m => by cases l <;> cases m <;> rfl
          exact (pointed.trans (positions_send _ l _ _ _ _)).trans (positions_captureSent _ c)
        · intro m
          cases l <;> cases m <;> rfl

/-- Settles O42, by the step of the choice that finds a cell. -/
theorem arbiterSendsByPriority : Obligations.ArbiterSendsByPriority := by
  intro l s locked due k x alert idleAgent sent
  obtain ⟨egress, events, agent, capture, link⟩ := s.beginPosition_same l
  have alertIs : s.events.alertPending l = alert := by cases l <;> rfl
  have quietOf (quiet : alert = false) : ¬(s.beginPosition l).events.alertPending l = true := by
    rw [events, alertIs, quiet]
    decide
  refine ⟨_, exec_cellPosition locked due, ?position, fun c rest waits => ?stream, fun none pending => ?alert,
    fun r rest none quiet waits => ?reply, fun c none quiet noReply offers turn => ?capture,
    fun none quiet noReply none0 none1 => ?idle⟩
  case position => rw [positions_arbitrate, link]
  case stream =>
    have sends := State.arbitrate_stream (s := s.beginPosition l) ((congrArg Egress.txBuffer (egress l)).trans waits)
    rw [sends, State.sendStream_eq]
    exact ⟨fun plain => by rw [Egress.afterCell_plain plain]; rfl,
      fun waiting => by rw [Egress.afterCell_waiting waiting]; rfl⟩
  case alert =>
    have sends := State.arbitrate_alert (s := s.beginPosition l) ((congrArg Egress.txBuffer (egress l)).trans none)
      (by rw [events, alertIs]; exact pending)
    rw [sends]
    cases l <;> rfl
  case reply =>
    have sends := State.arbitrate_reply (s := s.beginPosition l) ((congrArg Egress.txBuffer (egress l)).trans none)
      (quietOf quiet) ((congrArg (Agent.replies · l) agent).trans waits)
    rw [sends, State.sendReply_eq]
    exact State.agentPoll_afterReply s l r rest
  case capture =>
    have choice : (s.beginPosition l).captureChoice l = some c := by
      refine State.captureChoice_of_offers (by rw [capture]; exact offers) ?_
      rw [capture, link]
      exact turn
    have sends := State.arbitrate_capture (s := s.beginPosition l) ((congrArg Egress.txBuffer (egress l)).trans none)
      (quietOf quiet) (by rw [agent]; exact noReply) choice
    rw [sends, State.sendCapture_eq]
    exact State.captureSent_spec s l c
  case idle =>
    have choice : (s.beginPosition l).captureChoice l = .none :=
      State.captureChoice_none (by rw [capture]; exact none0) (by rw [capture]; exact none1)
    have sends := State.arbitrate_idle (s := s.beginPosition l) ((congrArg Egress.txBuffer (egress l)).trans none)
      (quietOf quiet) (by rw [agent]; exact noReply) choice
    rw [sends]
    cases l <;> rfl

end Sys2Proof.Machine
end

section
/-! SUPPORT. The Management Agent: a request read back from its payload (R169, R170, R182), and what becomes of a request
at its arrival and at the end of the service interval (R177 to R181). -/

namespace Sys2Proof.Machine

open Sys2Proof

/-! ## A request in its payload (R182) -/

theorem requestOf_unknown {p : List Byte} (unlisted : byteAt p 0 ∉ knownCodes) :
    requestOf p = .unknown (byteAt p 0) := by
  simp only [knownCodes, List.mem_cons, List.not_mem_nil, or_false, not_or] at unlisted
  simp only [requestOf, unlisted, if_false]

theorem requestCode_requestOf (p : List Byte) : requestCode (requestOf p) = byteAt p 0 := by
  by_cases listed : byteAt p 0 ∈ knownCodes
  · simp only [knownCodes, List.mem_cons, List.not_mem_nil, or_false] at listed
    unfold requestOf
    rcases listed with code | code | code | code | code | code | code | code | code | code | code | code | code | code |
      code | code | code | code | code | code | code | code | code | code <;> (rw [code]; rfl)
  · rw [requestOf_unknown listed]
    rfl

theorem slotSetOf_payload (tag : Byte) (p : SlotSetParams) : slotSetOf (requestPayload tag (.slotSet p)) = p := by
  have read : slotSetOf (requestPayload tag (.slotSet p)) =
      { p with
        present := p.present.extractLsb' 8 8 ++ p.present.extractLsb' 0 8
        frequency := p.frequency.extractLsb' 16 8 ++ (p.frequency.extractLsb' 8 8 ++ p.frequency.extractLsb' 0 8)
        cellId := p.cellId.extractLsb' 8 8 ++ p.cellId.extractLsb' 0 8
        holdMs := p.holdMs.extractLsb' 8 8 ++ p.holdMs.extractLsb' 0 8 } := rfl
  rw [read, join16, join16, join16, join24]

theorem egressSetOf_payload (tag : Byte) (p : EgressSetParams) :
    egressSetOf (requestPayload tag (.egressSet p)) = p := by
  have read : egressSetOf (requestPayload tag (.egressSet p)) =
      { p with
        rate := (p.rate.extractLsb' 24 8 ++ p.rate.extractLsb' 16 8) ++
          (p.rate.extractLsb' 8 8 ++ p.rate.extractLsb' 0 8)
        reserve := p.reserve.extractLsb' 8 8 ++ p.reserve.extractLsb' 0 8
        ageLimit := p.ageLimit.extractLsb' 8 8 ++ p.ageLimit.extractLsb' 0 8
        offset := p.offset.extractLsb' 16 8 ++ (p.offset.extractLsb' 8 8 ++ p.offset.extractLsb' 0 8) } := rfl
  rw [read, join32, join16, join16, join24]

/-- An entry description as it reads back from its bytes. -/
def joinedDesc (d : RouteDesc) : RouteDesc :=
  { d with
    pid := d.pid.extractLsb' 8 8 ++ d.pid.extractLsb' 0 8
    outA := d.outA.extractLsb' 8 8 ++ d.outA.extractLsb' 0 8
    outB := d.outB.extractLsb' 8 8 ++ d.outB.extractLsb' 0 8 }

theorem joinedDesc_eq (d : RouteDesc) : joinedDesc d = d := by rw [joinedDesc, join16, join16, join16]

theorem routeDescs_payload (tag count : Byte) (d0 d1 d2 : RouteDesc) :
    requestOf (requestPayload tag (.routeAdd count d0 d1 d2)) = .routeAdd count d0 d1 d2 := by
  have read : requestOf (requestPayload tag (.routeAdd count d0 d1 d2)) =
      .routeAdd count (joinedDesc d0) (joinedDesc d1) (joinedDesc d2) := rfl
  rw [read, joinedDesc_eq, joinedDesc_eq, joinedDesc_eq]

/-- A key as it reads back from its bytes. -/
def joinedKey (k : RouteKey) : RouteKey := { k with pid := k.pid.extractLsb' 8 8 ++ k.pid.extractLsb' 0 8 }

theorem joinedKey_eq (k : RouteKey) : joinedKey k = k := by rw [joinedKey, join16]

theorem routeKeys_payload (tag count : Byte) (keys : Vector RouteKey 8) :
    requestOf (requestPayload tag (.routeRemove count keys)) = .routeRemove count keys := by
  have read : requestOf (requestPayload tag (.routeRemove count keys)) =
      .routeRemove count #v[joinedKey keys[0], joinedKey keys[1], joinedKey keys[2], joinedKey keys[3], joinedKey keys[4],
        joinedKey keys[5], joinedKey keys[6], joinedKey keys[7]] := rfl
  rw [read]
  simp only [joinedKey_eq]
  rw [← keys8 keys]

theorem requestOf_payload (tag : Byte) {r : Request} (unlisted : ∀ code, r = .unknown code → code ∉ knownCodes) :
    requestOf (requestPayload tag r) = r := by
  cases r with
  | describe => rfl
  | reset => rfl
  | status clear => exact congrArg Request.status (join48 clear)
  | alertConfig enable a b => exact congrArg (Request.alertConfig · a b) (join48 enable)
  | statsSnapshot clear => rfl
  | statsRead page => rfl
  | frontRead => rfl
  | auxSet m0 m1 protection => rfl
  | auxWrite mask v0 v1 => rfl
  | auxRead => rfl
  | slotSet p => exact congrArg Request.slotSet (slotSetOf_payload tag p)
  | slotControl mask action => rfl
  | slotRead slot page => rfl
  | routeAdd count d0 d1 d2 => exact routeDescs_payload tag count d0 d1 d2
  | routeRemove count keys => exact routeKeys_payload tag count keys
  | routeClear => rfl
  | routeRead start => rfl
  | bankAssign bank owner => rfl
  | bankRead => rfl
  | egressSet p => exact congrArg Request.egressSet (egressSetOf_payload tag p)
  | egressControl egress action => rfl
  | egressRead egress page pid => exact congrArg (Request.egressRead egress page ·) (join16 pid)
  | captureStart context slot pid mode n =>
    exact congrArg (Request.captureStart context slot · mode n) (join16 pid)
  | captureCancel context => rfl
  | unknown code => exact requestOf_unknown (unlisted code rfl)

theorem requestPayload_head (tag : Byte) (r : Request) :
    byteAt (requestPayload tag r) 0 = requestCode r ∧ byteAt (requestPayload tag r) 1 = tag ∧
      (requestPayload tag r).length = 60 := ⟨rfl, rfl, length_padTo 60 _⟩

/-! ## A REQUEST cell (R163, R177, R179) -/

/-- The effect of a passing REQUEST cell in SYNC: its payload arrives. -/
theorem exec_requestCell {l : Side} {cell : CellBytes} {s : State} (locked : s.power = .locked)
    (signal : (s.link l).signal = true) (sync : (s.link l).delin = .sync)
    (passes : headerCheck cell[0] cell[1] cell[2] = cell[3]) (kind : cell[0].toNat / 16 = 8) :
    exec (.syncCell l cell) s = .next ((s.setLink l { s.link l with badRun := 0 }).request l
      (byteAt (cell.toList.drop 4) 1) (byteAt (cell.toList.drop 4) 0) (requestOf (cell.toList.drop 4))
      (cell.toList.drop 4)) := by
  rw [exec_syncCell locked signal sync, State.syncCell_passes passes, State.handleCell_request kind]

theorem State.agent_setLink (s : State) (l : Side) (k : LinkUnit) : (s.setLink l k).agent = s.agent := by
  cases l <;> rfl

theorem State.power_setLink (s : State) (l : Side) (k : LinkUnit) : (s.setLink l k).power = s.power := by
  cases l <;> rfl

theorem serves_setLink (s : State) (l m : Side) (k : LinkUnit) : (s.setLink m k).Serves l ↔ s.Serves l := by
  rw [State.Serves, State.agent_setLink, State.power_setLink]

/-- Settles O46: any payload by whether the Agent is ready, a request's own payload by what it reads back as. -/
theorem requestsReadBackFromTheirPayload : Obligations.RequestsReadBackFromTheirPayload := by
  refine ⟨fun p => ⟨requestCode_requestOf p, requestOf_unknown⟩,
    fun l cell s locked signal sync passes kind => ⟨fun serves => ?taken, fun busy => ?waits⟩,
    fun tag r unlisted => ⟨⟨requestOf_payload tag unlisted, requestPayload_head tag r⟩,
      fun l cell s locked signal sync passes kind payload => ?row⟩⟩
  case taken =>
    rw [exec_requestCell locked signal sync passes kind]
    exact congrArg Host.Outcome.next (State.request_takes ((serves_setLink s l l _).mpr serves) _)
  case waits =>
    refine ⟨_, exec_requestCell locked signal sync passes kind, State.request_waits _ l _ _ _ _ ?_⟩
    rw [State.agent_setLink, Agent.ready_iff s l locked]
    exact busy
  case row =>
    have ran : exec (.syncCell l cell) s = .next ((s.setLink l { s.link l with badRun := 0 }).requestRow l tag r) := by
      obtain ⟨code, tagByte, -⟩ := requestPayload_head tag r
      have locked' : (s.setLink l { s.link l with badRun := 0 }).power = .locked :=
        (State.power_setLink s l _).trans locked
      rw [exec_requestCell locked signal sync passes kind, payload, requestOf_payload tag unlisted, code, tagByte,
        State.requestRow, State.whenLocked_of_locked _ _ locked']
    refine ⟨ran, ?_, ?_, ?_⟩
    · rintro rfl
      exact ran
    · rintro rfl
      exact ran
    · rintro p rfl
      exact ran

end Sys2Proof.Machine
end

section
/-! SUPPORT. The Management Agent's service interval and the requests that wait (R177 to R181). -/

namespace Sys2Proof.Machine

open Sys2Proof

/-! ## The end of the service interval (R179, R180) -/

/-- The state with the Agent IDLE. -/
def State.idled (s : State) : State := { s with agent := { s.agent with interval := none } }

theorem exec_serviceIntervalEnd {s : State} (locked : s.power = .locked) (expired : s.agent.interval = some 0) :
    exec .serviceIntervalEnd s = .next s.idled.agentPoll :=
  congrArg Host.Outcome.next (State.whenDue_of_due s _ _ locked (beq_iff_eq.mpr expired))

theorem State.idled_eligible (s : State) (l : Side) :
    s.idled.agent.eligible l = true ↔ s.agent.requests l ≠ [] ∧ (s.agent.replies l).length < 8 := by
  rw [Agent.eligible_iff]
  cases l <;> rfl

/-- The Agent of a state in which it has taken a request from link l. -/
theorem State.taken_agent (s : State) (l : Side) (p : List Byte) (rest : List (List Byte)) :
    let t := s.taken l p rest
    t.agent.requests l = rest ∧ t.agent.requests (otherSide l) = s.agent.requests (otherSide l) ∧
    t.agent.lastServed = l ∧ t.agent.interval = some 64 ∧
    t.agent.replies (otherSide l) = s.agent.replies (otherSide l) ∧
    ∃ r, t.agent.replies l = s.agent.replies l ++ [r] ∧ r.code = byteAt p 0 ∧ r.tag = byteAt p 1 ∧
      r.data.length = 56 ∧ r.summary = summaryRecord t.events := by
  intro t
  obtain ⟨-, -, -, -, kept, -⟩ :=
    keeps_applyRequest { s with agent := s.agent.setRequests l rest } l (requestOf p)
  have agent : t.agent = { (s.agent.setRequests l rest).setReplies l ((s.agent.setRequests l rest).replies l ++
      [⟨byteAt p 0, byteAt p 1, (({ s with agent := s.agent.setRequests l rest } : State).applyRequest l
          (requestOf p)).status, summaryRecord t.events,
        padTo 56 (({ s with agent := s.agent.setRequests l rest } : State).applyRequest l (requestOf p)).data⟩]) with
      lastServed := l, interval := some 64 } := by
    simp only [t, State.taken, kept]
  rw [agent]
  cases l <;> exact ⟨rfl, rfl, rfl, rfl, rfl, _, rfl, rfl, rfl, length_padTo 56 _, rfl⟩

/-- A request's own payload, taken as the last one of its link, is the request served. -/
theorem State.taken_payload (s : State) (l : Side) (tag : Byte) {r : Request}
    (unlisted : ∀ code, r = .unknown code → code ∉ knownCodes) :
    s.taken l (requestPayload tag r) [] =
      ({ s with agent := s.agent.setRequests l [] } : State).serve l tag (requestCode r) r := by
  obtain ⟨code, tagByte, -⟩ := requestPayload_head tag r
  rw [State.taken, requestOf_payload tag unlisted, code, tagByte]
  rfl

/-- Settles O47, by the Agent's choice between the links. -/
theorem agentAlternatesBetweenLinks : Obligations.AgentAlternatesBetweenLinks := by
  intro s locked expired eligible
  have takes (l : Side) (p : List Byte) (rest : List (List Byte)) (chosen : eligible l)
      (turn : eligible (otherSide l) → s.agent.lastServed = otherSide l) (waits : s.agent.requests l = p :: rest) :
      s.idled.agentPoll = s.idled.taken l p rest :=
    State.agentPoll_takes rfl ((s.idled_eligible l).mpr chosen)
      (fun other => turn ((s.idled_eligible _).mp other)) (by cases l <;> exact waits)
  refine ⟨_, exec_serviceIntervalEnd locked expired, fun noA noB => ?idles, fun l p rest chosen turn waits => ?taken,
    fun c l tag r row chosen turn waits => ?row⟩
  case idles =>
    exact State.agentPoll_idles rfl (Bool.eq_false_iff.mpr (mt (s.idled_eligible .a).mp noA))
      (Bool.eq_false_iff.mpr (mt (s.idled_eligible .b).mp noB))
  case taken =>
    rw [takes l p rest chosen turn waits]
    obtain ⟨requests, others, last, interval, replies, reply⟩ := s.idled.taken_agent l p rest
    refine ⟨requests, others.trans ?_, last, interval, replies.trans ?_, rfl, ?_⟩
    · cases l <;> rfl
    · cases l <;> rfl
    · obtain ⟨r, placed, reads⟩ := reply
      exact ⟨r, placed.trans (by cases l <;> rfl), reads⟩
  case row =>
    have serves : State.Serves { s with agent := { s.agent.setRequests l [] with interval := none } } l := by
      refine ⟨locked, rfl, ?_, ?_⟩
      · cases l <;> rfl
      · obtain ⟨-, room⟩ := chosen
        cases l <;> exact room
    rw [takes l _ [] chosen turn waits, State.taken_payload _ _ _ (rowOf_unknown row), exec_rowOf row,
      State.requestRow_of_serves serves]
    cases l <;> rfl

/-! ## Requests that wait (R163, R177) -/

/-- Settles O48, by whether the Agent is busy, not ready, or not yet running. -/
theorem requestsWaitOrAreUnknown : Obligations.RequestsWaitOrAreUnknown := by
  refine ⟨fun l tag code s serves unlisted => ?unknown,
    fun c l tag r q s row locked busy => ⟨fun room => ?joins, fun full => ?discarded⟩,
    fun c l tag r s row locked busy => ?waits, fun c l tag r s row unlocked => ?unlocked⟩
  case unknown =>
    have row : rowOf (.unknownRequest l tag code) = some (l, tag, .unknown code) := if_neg unlisted
    exact served serves (exec_rowOf row s)
  case joins =>
    rw [exec_rowOf row, State.requestRow, State.whenLocked_of_locked _ _ locked, State.request_joins busy room]
  case discarded =>
    rw [exec_rowOf row, State.requestRow, State.whenLocked_of_locked _ _ locked, State.request_discards busy full]
    rfl
  case waits =>
    refine ⟨_, exec_rowOf row s, ?_⟩
    rw [State.requestRow, State.whenLocked_of_locked _ _ locked]
    exact State.request_waits s l _ _ _ _ (mt (Agent.ready_iff s l locked).mp busy)
  case unlocked =>
    rw [exec_rowOf row, State.requestRow, State.whenLocked, if_neg unlocked]

end Sys2Proof.Machine
end

section
/-! SUPPORT. The event flags, STATUS and ALERT_CONFIG (R172, R194 to R197). -/

namespace Sys2Proof.Machine

open Sys2Proof

/-! ## The numbers of the flags (R172) -/

/-- The five flags of a slot in the order of their numbers. -/
def slotFlag (n : SlotId) (k : Nat) : EventFlag :=
  [EventFlag.acqFailed n, .lockLost n, .mismatch n, .echoSpread n, .paramChange n].getD k .mastFault

/-- The flag of a number. -/
def flagAt (k : Nat) : EventFlag :=
  if k < 30 then slotFlag (Fin.ofNat 6 (k / 5)) (k % 5)
  else
    [EventFlag.dropping .a, .stale .a, .dropping .b, .stale .b, .linkDown .a, .reqDiscard .a, .linkDown .b,
      .reqDiscard .b, .overload .rf0, .gainLimit .rf0, .overload .rf1, .gainLimit .rf1, .mastFault, .captureEnd .c0,
      .captureEnd .c1].getD (k - 30) .mastFault

theorem flagAt_flagNumber (f : EventFlag) : flagAt (flagNumber f) = f := by
  cases f with
  | acqFailed n => revert n; decide
  | lockLost n => revert n; decide
  | mismatch n => revert n; decide
  | echoSpread n => revert n; decide
  | paramChange n => revert n; decide
  | dropping e => cases e <;> rfl
  | stale e => cases e <;> rfl
  | linkDown l => cases l <;> rfl
  | reqDiscard l => cases l <;> rfl
  | overload i => cases i <;> rfl
  | gainLimit i => cases i <;> rfl
  | mastFault => rfl
  | captureEnd c => cases c <;> rfl

theorem flagNumber_injective {f g : EventFlag} (same : flagNumber g = flagNumber f) : g = f := by
  rw [← flagAt_flagNumber g, same, flagAt_flagNumber]

/-- Settles O51: the numbers by their inverse, the alert cells by what a latch leaves. -/
theorem latchMakesAlertsPending : Obligations.LatchMakesAlertsPending := by
  refine ⟨fun n => ⟨rfl, rfl, rfl, rfl, rfl⟩, rfl, getLsbD_flagMask, summary_iff, fun f u => ?latch⟩
  case latch =>
    intro v
    obtain ⟨enabled, alertA, alertB, rises, stays⟩ := AlertsFollow.latch f u
    refine ⟨latchEvent_latched f u, enabled, alertA, alertB, rises, fun still => stays ?_, flagNumber_lt f,
      (getLsbD_latchEvent f u _).mpr (.inr rfl), fun g same => flagNumber_injective same⟩
    rcases still with up | down
    · rw [up]
      exact summary_latchEvent f u up
    · rw [down]
      cases was : summary u with
      | false => rfl
      | true => rw [← down, ← summary_latchEvent f u was]

/-! ## The summary record (R172) -/

theorem summaryBits : ∀ b5 b4 b3 b2 b1 b0 : Bool,
    let byte := BitVec.ofNat 8 (packBits [(1, b5.toNat), (1, b4.toNat), (1, b3.toNat), (1, b2.toNat), (1, b1.toNat),
      (1, b0.toNat)])
    byte.getLsbD 0 = b0 ∧ byte.getLsbD 1 = b1 ∧ byte.getLsbD 2 = b2 ∧ byte.getLsbD 3 = b3 ∧ byte.getLsbD 4 = b4 ∧
      byte.getLsbD 5 = b5 ∧ byte.getLsbD 6 = false ∧ byte.getLsbD 7 = false := by
  decide

theorem eventBytes_eq (set : BitVec 45) : eventBytes set = beBytes 6 set.toNat := by
  have below := set.isLt
  rw [eventBytes, bytes48_eq, BitVec.toNat_setWidth, Nat.mod_eq_of_lt (by omega)]

/-! ## What a change of the summary leaves of the alert cells (R195) -/

theorem settleAlerts_keeps (before : Bool) (u : EventUnit) :
    (settleAlerts before u).latched = u.latched ∧ (settleAlerts before u).enabled = u.enabled ∧
    (settleAlerts before u).alertA = u.alertA ∧ (settleAlerts before u).alertB = u.alertB := by
  unfold settleAlerts
  split
  · exact ⟨rfl, rfl, rfl, rfl⟩
  · split <;> exact ⟨rfl, rfl, rfl, rfl⟩

theorem settleAlerts_rises {u : EventUnit} (up : summary u = true) :
    (settleAlerts false u).pendingA = (u.pendingA || u.alertA) ∧
    (settleAlerts false u).pendingB = (u.pendingB || u.alertB) := by
  unfold settleAlerts
  rw [up]
  exact ⟨rfl, rfl⟩

theorem settleAlerts_falls {u : EventUnit} (down : summary u = false) :
    (settleAlerts true u).pendingA = false ∧ (settleAlerts true u).pendingB = false := by
  unfold settleAlerts
  rw [down]
  exact ⟨rfl, rfl⟩

theorem settleAlerts_same {before : Bool} {u : EventUnit} (same : summary u = before) : settleAlerts before u = u := by
  unfold settleAlerts
  rw [same]
  cases before <;> rfl

/-- Settles O52: the record bit by bit, and the clear by what becomes of the summary. -/
theorem statusReadsThenClears : Obligations.StatusReadsThenClears := by
  refine ⟨fun u => ?record, eventBytes_eq, fun l tag clear s serves => ?status⟩
  case record =>
    intro reported
    obtain ⟨bit0, bit1, bit2, bit3, bit4, bit5, bit6, bit7⟩ :=
      summaryBits (groupOr u 43 2) (groupOr u 38 5) (groupOr u 34 4) (groupOr u 30 4) (groupOr u 0 30) (summary u)
    have all : summary u = true ↔ reported 0 45 := by
      rw [summary_iff]
      simp only [reported, Nat.zero_le, true_and]
    refine ⟨?_, ?_, ?_, ?_, ?_, ?_, bit6, bit7⟩
    · exact (Eq.congr_left bit0).trans all
    · exact (Eq.congr_left bit1).trans (groupOr_iff u 0 30)
    · exact (Eq.congr_left bit2).trans (groupOr_iff u 30 4)
    · exact (Eq.congr_left bit3).trans (groupOr_iff u 34 4)
    · exact (Eq.congr_left bit4).trans (groupOr_iff u 38 5)
    · exact (Eq.congr_left bit5).trans (groupOr_iff u 43 2)
  case status =>
    obtain ⟨t, ran, replied, same⟩ := served (c := .status l tag clear) serves rfl
    have events : t.events = settleAlerts (summary s.events)
        { s.events with latched := s.events.latched &&& ~~~eventSetOf clear } := by
      rw [same]
      rfl
    obtain ⟨latched, enabled, alertA, alertB⟩ := settleAlerts_keeps (summary s.events)
      { s.events with latched := s.events.latched &&& ~~~eventSetOf clear }
    have summaries : summary t.events =
        summary { s.events with latched := s.events.latched &&& ~~~eventSetOf clear } := by
      rw [events, summary_settleAlerts]
    refine ⟨t, ran, replied, ?frame, fun k below => ?cleared, ?enabled, ?alertA, ?alertB, fun up down => ?falls,
      fun still => ?stays, fun none => ?nothing⟩
    case frame =>
      rw [events]
      exact same
    case cleared =>
      rw [events, latched]
      simp [eventSetOf, below]
    case enabled => rw [events, enabled]
    case alertA => rw [events, alertA]
    case alertB => rw [events, alertB]
    case falls =>
      rw [events, up]
      exact settleAlerts_falls (summaries.symm.trans down)
    case stays =>
      rw [events, settleAlerts_same (summaries.symm.trans still)]
      exact ⟨rfl, rfl⟩
    case nothing =>
      have kept : ({ s.events with latched := s.events.latched &&& ~~~eventSetOf clear } : EventUnit) = s.events := by
        have latched : s.events.latched &&& ~~~eventSetOf clear = s.events.latched := by
          rw [none]
          exact BitVec.and_allOnes
        rw [latched]
      have cleared : (s.applyRequest l (.status clear)).state = s := by
        have unit : clearEvents (eventSetOf clear) s.events = s.events := by
          unfold clearEvents
          rw [kept, settleAlerts_same rfl]
        change ({ s with events := clearEvents (eventSetOf clear) s.events } : State) = s
        rw [unit]
      rw [cleared] at same
      exact same

/-! ## ALERT_CONFIG (R195, R196) -/

theorem flagOf_low : ∀ b : Byte, b.toNat ≤ 1 → flagOf b = some (b == 1) ∧ flagByte (b == 1) = [b] := by
  unfold flagOf flagByte
  decide +kernel

theorem flagOf_high : ∀ b : Byte, 1 < b.toNat → flagOf b = none := by
  unfold flagOf
  decide +kernel

/-- What ALERT_CONFIG makes of the event unit, by what becomes of the summary (R195, R196). -/
theorem configureEvents_spec (enable : BitVec 45) (onA onB : Bool) (u : EventUnit) :
    let v := configureEvents enable onA onB u
    v.latched = u.latched ∧ v.enabled = enable ∧ v.alertA = onA ∧ v.alertB = onB ∧
    (summary u = false → summary v = true → v.pendingA = onA ∧ v.pendingB = onB) ∧
    (summary u = true → summary v = false → v.pendingA = false ∧ v.pendingB = false) ∧
    (summary v = summary u → v.pendingA = (u.pendingA && onA) ∧ v.pendingB = (u.pendingB && onB)) := by
  intro v
  obtain ⟨latched, enabled, alertA, alertB⟩ := settleAlerts_keeps (summary u)
    { u with enabled := enable, alertA := onA, alertB := onB }
  have summaries : summary v = summary { u with enabled := enable, alertA := onA, alertB := onB } :=
    summary_settleAlerts (summary u) { u with enabled := enable, alertA := onA, alertB := onB }
  refine ⟨latched, enabled, alertA, alertB, fun down up => ?rises, fun up down => ?falls, fun still => ?stays⟩
  case rises =>
    obtain ⟨pendingA, pendingB⟩ := settleAlerts_rises (summaries.symm.trans up)
    have absorbs : ∀ was on : Bool, ((was || on) && on) = on := by decide
    simp only [v, configureEvents, down, pendingA, pendingB, absorbs]
    exact ⟨trivial, trivial⟩
  case falls =>
    obtain ⟨pendingA, pendingB⟩ := settleAlerts_falls (summaries.symm.trans down)
    simp only [v, configureEvents, up, pendingA, pendingB, Bool.false_and]
    exact ⟨trivial, trivial⟩
  case stays =>
    simp only [v, configureEvents, settleAlerts_same (summaries.symm.trans still)]
    exact ⟨trivial, trivial⟩

/-- Settles O53, by whether the settings are in range and what becomes of the summary. -/
theorem alertConfigReplacesTheEnables : Obligations.AlertConfigReplacesTheEnables := by
  intro l tag enable a b s serves
  obtain ⟨t, ran, replied, same⟩ := served (c := .alertConfig l tag enable a b) serves rfl
  refine ⟨t, ran, fun out => ?refused, fun lowA lowB => ?done⟩
  case refused =>
    have answer : s.applyRequest l (.alertConfig enable a b) = s.refuse .badArg [] := by
      change s.alertConfig enable a b = _
      unfold State.alertConfig
      split
      · next first second =>
        rcases out with highA | highB
        · rw [flagOf_high a highA] at first
          cases first
        · rw [flagOf_high b highB] at second
          cases second
      · rfl
    rw [answer] at replied same
    exact ⟨replied, same⟩
  case done =>
    obtain ⟨codeA, byteA⟩ := flagOf_low a lowA
    obtain ⟨codeB, byteB⟩ := flagOf_low b lowB
    have answer : s.applyRequest l (.alertConfig enable a b) =
        ({ s with events := configureEvents (eventSetOf enable) (a == 1) (b == 1) s.events } : State).accept
          (eventBytes (eventSetOf enable) ++ [a] ++ [b]) := by
      change s.alertConfig enable a b = _
      simp only [State.alertConfig, codeA, codeB, byteA, byteB]
    rw [answer] at replied same
    have events : t.events = configureEvents (eventSetOf enable) (a == 1) (b == 1) s.events := congrArg State.events same
    rw [List.append_assoc] at replied
    have spec := configureEvents_spec (eventSetOf enable) (a == 1) (b == 1) s.events
    rw [← events] at spec
    refine ⟨replied, ?_, spec⟩
    rw [events]
    exact same

end Sys2Proof.Machine
end

section
/-! SUPPORT. The statistics snapshot, and the start and the cancellation of a capture (R188, R192, R198). -/

namespace Sys2Proof.Machine

open Sys2Proof

/-! ## The 68 counters and the snapshot (R198) -/

/-- The 68 counters, one block per slot, per egress and per link. -/
theorem State.liveCounters_eq (s : State) :
    s.liveCounters = (s.slot 0).counters.list ++ (s.slot 1).counters.list ++ (s.slot 2).counters.list ++
      (s.slot 3).counters.list ++ (s.slot 4).counters.list ++ (s.slot 5).counters.list ++ (s.egress .a).counters.list ++
      (s.egress .b).counters.list ++ (s.link .a).counters.list ++ (s.link .b).counters.list :=
  rfl

theorem State.slot_zeroCounters (s : State) (n : SlotId) :
    s.zeroCounters.slot n = { s.slot n with counters := SlotCounters.zero } := by
  simp only [State.slot, State.zeroCounters, Fin.getElem_fin, Vector.getElem_map]

theorem State.egress_zeroCounters (s : State) (e : Side) :
    s.zeroCounters.egress e = { s.egress e with counters := EgressCounters.zero } := by
  cases e <;> rfl

theorem State.link_zeroCounters (s : State) (k : Side) :
    s.zeroCounters.link k = { s.link k with counters := LinkCounters.zero } := by
  cases k <;> rfl

theorem State.liveCounters_zeroCounters (s : State) : s.zeroCounters.liveCounters = List.replicate 68 0 := by
  simp only [State.liveCounters_eq, State.slot_zeroCounters, State.egress_zeroCounters, State.link_zeroCounters]
  rfl

/-- Settles O54: the setting of the snapshot by its values, the numbering block by block, the page by the checks. -/
theorem snapshotCopiesTheLiveCounters : Obligations.SnapshotCopiesTheLiveCounters := by
  intro l tag s serves
  refine ⟨?keeps, ?clears, fun clear high => ?refused, rfl, fun n => ?slots, fun e => ?egresses, fun k => ?links,
    fun page => ?page⟩
  case keeps =>
    obtain ⟨t, ran, replied, same⟩ := served (c := .statsSnapshot l tag 0) serves rfl
    exact ⟨t, ran, replied, same⟩
  case clears =>
    obtain ⟨t, ran, replied, same⟩ := served (c := .statsSnapshot l tag 1) serves rfl
    have zeroed : t = { s.takeSnapshot.zeroCounters with agent := t.agent } := same
    generalize t.agent = agent at zeroed
    subst zeroed
    exact ⟨_, ran, replied, rfl, s.takeSnapshot.liveCounters_zeroCounters, s.takeSnapshot.slot_zeroCounters,
      s.takeSnapshot.egress_zeroCounters, s.takeSnapshot.link_zeroCounters, rfl⟩
  case refused =>
    have answer : s.applyRequest l (.statsSnapshot clear) = s.refuse .badArg [] := by
      change s.statsSnapshot clear = _
      simp only [State.statsSnapshot, flagOf_high clear high]
    obtain ⟨t, ran, replied, same⟩ := served_answer (c := .statsSnapshot l tag clear) serves rfl answer
    exact ⟨t, ran, replied, same⟩
  case slots => fin_cases n <;> rfl
  case egresses => cases e <;> rfl
  case links => cases k <;> rfl
  case page =>
    obtain ⟨t, ran, replied, same⟩ := served (c := .statsRead l tag page) serves rfl
    have outcome {a : Answer} (answer : s.statsRead page = a) :
        Replied s t l tag 0x06 a.status a.data ∧ SameButAgent a.state t := by
      subst answer
      exact ⟨replied, same⟩
    by_cases high : 4 < page.toNat
    · obtain ⟨replied, same⟩ := outcome (if_pos high)
      exact ⟨t, ran, same, fun _ => replied, fun low => absurd high (by omega), fun low => absurd high (by omega)⟩
    · cases valid : s.snapshot.valid with
      | false =>
        obtain ⟨replied, same⟩ := outcome ((if_neg high).trans (if_neg (by rw [valid]; decide)))
        exact ⟨t, ran, same, fun above => absurd above high, fun _ _ => replied, fun _ on => Bool.noConfusion on⟩
      | true =>
        obtain ⟨replied, same⟩ := outcome ((if_neg high).trans (if_pos valid))
        exact ⟨t, ran, same, fun above => absurd above high, fun _ off => Bool.noConfusion off, fun _ _ => replied⟩

/-! ## CAPTURE_START (R188) -/

theorem contextOf_contextByte (c : CtxId) : contextOf (contextByte c) = some c := by
  cases c <;> rfl

theorem contextOf_high : ∀ b : Byte, 1 < b.toNat → contextOf b = none := by
  unfold contextOf
  decide +kernel

/-- The mode of a code of R188. -/
def captureModeAt (mode : Byte) : CaptureMode :=
  if mode = 1 then .count else if mode = 2 then .sectionMode else .continuous

theorem captureModeOf_inRange : ∀ mode : Byte, 1 ≤ mode.toNat → mode.toNat ≤ 3 →
    captureModeOf mode = some (captureModeAt mode) ∧ (captureModeAt mode = .sectionMode ↔ mode = 2) := by
  unfold captureModeOf captureModeAt
  decide +kernel

theorem captureModeOf_outOfRange : ∀ mode : Byte, ¬(1 ≤ mode.toNat ∧ mode.toNat ≤ 3) → captureModeOf mode = none := by
  unfold captureModeOf
  decide +kernel

/-- The parameters of CAPTURE_START in range (R188). -/
def CaptureArgsOk (slot : Byte) (pid : BitVec 16) (mode n : Byte) : Prop :=
  slot.toNat < 6 ∧ pid.toNat ≤ 8190 ∧ 1 ≤ mode.toNat ∧ mode.toNat ≤ 3 ∧ (mode = 2 ∨ 1 ≤ n.toNat ∧ n.toNat ≤ 64)

theorem captureArgs_ok {slot mode n : Byte} {pid : BitVec 16} (ok : CaptureArgsOk slot pid mode n) {k : SlotId}
    (named : slot.toNat = k.val) : captureArgs slot pid mode n = some (k, captureModeAt mode) := by
  obtain ⟨below, pidOk, low, high, counts⟩ := ok
  obtain ⟨code, sections⟩ := captureModeOf_inRange mode low high
  have slotCode : slotOf slot = some k := by
    rw [slotOf, dif_pos below]
    exact congrArg some (Fin.ext named)
  rw [← sections] at counts
  simp only [captureArgs, slotCode, code]
  exact if_pos ⟨pidOk, counts⟩

theorem captureArgs_none {slot mode n : Byte} {pid : BitVec 16} (bad : ¬CaptureArgsOk slot pid mode n) :
    captureArgs slot pid mode n = none := by
  by_cases modeOk : 1 ≤ mode.toNat ∧ mode.toNat ≤ 3
  · by_cases below : slot.toNat < 6
    · obtain ⟨code, sections⟩ := captureModeOf_inRange mode modeOk.1 modeOk.2
      have counts : ¬(pid.toNat ≤ 8190 ∧ (captureModeAt mode = .sectionMode ∨ 1 ≤ n.toNat ∧ n.toNat ≤ 64)) := by
        rw [sections]
        exact fun ⟨pidOk, counts⟩ => bad ⟨below, pidOk, modeOk.1, modeOk.2, counts⟩
      simp only [captureArgs, slotOf, dif_pos below, code]
      exact if_neg counts
    · simp only [captureArgs, slotOf, dif_neg below]
  · simp only [captureArgs, captureModeOf_outOfRange mode modeOk]
    split
    · next code => cases code
    · rfl

/-! ## The answers by the checks of R188 and R192 -/

section Captures
variable {l : Side} {s : State} {c : CtxId} {slot mode n : Byte} {pid : BitVec 16}

theorem State.captureStart_busy (busy : (s.capture c).state ≠ .idle) :
    s.captureStart l (contextByte c) slot pid mode n = s.refuse .busy [] := by
  simp only [State.captureStart, contextOf_contextByte]
  exact if_pos busy

theorem State.captureStart_badArg (idle : (s.capture c).state = .idle) (bad : ¬CaptureArgsOk slot pid mode n) :
    s.captureStart l (contextByte c) slot pid mode n = s.refuse .badArg [] := by
  simp only [State.captureStart, contextOf_contextByte, captureArgs_none bad]
  exact if_neg (not_not_intro idle)

theorem State.captureStart_named (idle : (s.capture c).state = .idle) (ok : CaptureArgsOk slot pid mode n) {k : SlotId}
    (named : slot.toNat = k.val) :
    s.captureStart l (contextByte c) slot pid mode n =
      if (s.slot k).acq = .off ∨ s.poolCapacity .capture = 0 then s.refuse .badState []
      else (s.setCapture c (startedCapture l k pid (captureModeAt mode) n)).accept [contextByte c, 1] := by
  simp only [State.captureStart, contextOf_contextByte, captureArgs_ok ok named]
  exact if_neg (not_not_intro idle)

theorem State.captureCancel_running (running : (s.capture c).state = .active ∨ (s.capture c).state = .suspended) :
    s.captureCancel (contextByte c) =
      (s.setCapture c ((s.capture c).finish .cancelled)).accept ((s.capture c).finish .cancelled).cancelReport := by
  have runs : (s.capture c).running = true := by
    rcases running with active | suspended
    · rw [CaptureContext.running, active]
      rfl
    · rw [CaptureContext.running, suspended]
      rfl
  simp only [State.captureCancel, contextOf_contextByte]
  exact if_pos runs

theorem State.captureCancel_ended (ended : (s.capture c).state = .idle ∨ (s.capture c).state = .draining) :
    s.captureCancel (contextByte c) = s.refuse .badState (s.capture c).cancelReport := by
  have still : (s.capture c).running = false := by
    rcases ended with idle | draining
    · rw [CaptureContext.running, idle]
      rfl
    · rw [CaptureContext.running, draining]
      rfl
  simp only [State.captureCancel, contextOf_contextByte]
  exact if_neg (by rw [still]; decide)

end Captures

theorem CaptureContext.cancelReport_finish (r : EndReason) (x : CaptureContext) :
    (x.finish r).cancelReport = [3] ++ beBytes 2 x.buffers.length := by
  rw [CaptureContext.cancelReport, CaptureContext.pendingPackets, CaptureContext.buffers_finish]
  rfl

theorem CaptureContext.cancelReport_ended {x : CaptureContext} (ended : x.state = .idle ∨ x.state = .draining) :
    x.cancelReport = [if x.state = .idle then 0 else 3] ++ beBytes 2 x.buffers.length := by
  rcases ended with state | state
  · simp [CaptureContext.cancelReport, CaptureContext.stateByte, CaptureContext.pendingPackets, captureStateCode, state]
  · simp [CaptureContext.cancelReport, CaptureContext.stateByte, CaptureContext.pendingPackets, captureStateCode, state]

/-- Settles O55, by the checks of R188 in their order and by the state of the context. -/
theorem capturesStartAndCancel : Obligations.CapturesStartAndCancel := by
  intro l tag s serves
  refine ⟨fun context slot pid mode n high => ?noContext, fun c slot pid mode n => ?start, fun c => ?cancel,
    fun context high => ?noCancel⟩
  case noContext =>
    have answer : s.applyRequest l (.captureStart context slot pid mode n) = s.refuse .badArg [] := by
      change s.captureStart l context slot pid mode n = _
      simp only [State.captureStart, contextOf_high context high]
    obtain ⟨t, ran, replied, same⟩ :=
      served_answer (c := .captureStart l tag context slot pid mode n) serves rfl answer
    exact ⟨t, ran, replied, same⟩
  case start =>
    obtain ⟨t, ran, replied, same⟩ :=
      served (c := .captureStart l tag (contextByte c) slot pid mode n) serves rfl
    have outcome {a : Answer} (answer : s.captureStart l (contextByte c) slot pid mode n = a) :
        Replied s t l tag 0x60 a.status a.data ∧ SameButAgent a.state t := by
      subst answer
      exact ⟨replied, same⟩
    refine ⟨t, ran, fun busy => outcome (State.captureStart_busy busy),
      fun idle bad => outcome (State.captureStart_badArg idle bad), fun k idle ok named =>
      ⟨fun unready => ?unready, fun on lent => ?started⟩⟩
    case unready => exact outcome ((State.captureStart_named idle ok named).trans (if_pos unready))
    case started =>
      obtain ⟨replied, same⟩ := outcome ((State.captureStart_named idle ok named).trans
        (if_neg (not_or.mpr ⟨on, lent⟩)))
      have capture : t.capture c = startedCapture l k pid (captureModeAt mode) n :=
        (capture_of_sameButAgent same c).trans (State.capture_setCapture_same _ _ _)
      refine ⟨replied, capture, ?_⟩
      rw [capture]
      exact same
  case cancel =>
    obtain ⟨t, ran, replied, same⟩ := served (c := .captureCancel l tag (contextByte c)) serves rfl
    have outcome {a : Answer} (answer : s.captureCancel (contextByte c) = a) :
        Replied s t l tag 0x61 a.status a.data ∧ SameButAgent a.state t := by
      subst answer
      exact ⟨replied, same⟩
    refine ⟨t, ran, fun running => ?cancelled, fun ended => ?refused⟩
    case cancelled =>
      obtain ⟨replied, same⟩ := outcome (State.captureCancel_running running)
      change Replied s t l tag 0x61 .ok ((s.capture c).finish .cancelled).cancelReport at replied
      rw [CaptureContext.cancelReport_finish] at replied
      exact ⟨replied, same⟩
    case refused =>
      rw [← CaptureContext.cancelReport_ended ended]
      exact outcome (State.captureCancel_ended ended)
  case noCancel =>
    have answer : s.applyRequest l (.captureCancel context) = (s.useFree 3).refuse .badArg (s.freeBytes 3) := by
      change s.captureCancel context = _
      simp only [State.captureCancel, contextOf_high context high]
    obtain ⟨t, ran, replied, same⟩ := served_answer (c := .captureCancel l tag context) serves rfl answer
    refine ⟨t, s.freeBytes 3, ran, replied, ?_⟩
    have count : t.freeCount = s.freeCount + 3 := congrArg State.freeCount same
    rw [count]
    exact same

end Sys2Proof.Machine
end

section
/-! SUPPORT. The datapath reset, block by block (R185). -/

namespace Sys2Proof.Machine

open Sys2Proof

/-! ## The banks -/

/-- A bank with its drain done (R123). -/
def drainDone (k : Bank) : Bank :=
  match k.state with
  | .active => k
  | .draining o => ⟨o, .active⟩

theorem drainDone_active {k : Bank} (active : k.state = .active) : drainDone k = k := by
  simp only [drainDone, active]

theorem drainDone_draining {k : Bank} {o : Owner} (draining : k.state = .draining o) : drainDone k = ⟨o, .active⟩ := by
  simp only [drainDone, draining]

theorem drainDone_drainDone (k : Bank) : drainDone (drainDone k) = drainDone k := by
  cases state : k.state with
  | active => rw [drainDone_active state, drainDone_active state]
  | draining o =>
    rw [drainDone_draining state]
    rfl

/-- Drain tests leave a bank or end its drain; either way the end of its drain is the same. -/
theorem State.drainDone_drainTests (u : State) (freed : List BufferId) (b : Fin 8) :
    drainDone (freed.foldl (fun t id => t.drainTest id.bank) u).banks[b] = drainDone u.banks[b] := by
  obtain ⟨active, draining⟩ := u.drainTests_banks freed b
  cases state : u.banks[b].state with
  | active => rw [active state]
  | draining o =>
    obtain ⟨passes, stays⟩ := draining o state
    by_cases touched : (∃ id ∈ freed, id.bank = b) ∧ u.bankHeld b = 0
    · rw [passes touched.1 touched.2, drainDone_draining state]
      rfl
    · rw [stays ?_]
      by_cases empty : u.bankHeld b = 0
      · exact .inl fun id member same => touched ⟨⟨id, member, same⟩, empty⟩
      · exact .inr empty

/-- The drain test of every bank, written as tests after frees. -/
theorem State.drainAll_eq (u : State) :
    u.drainAll = (allBanks.map fun b => (⟨b, 0⟩ : BufferId)).foldl (fun t id => t.drainTest id.bank) u := rfl

theorem State.drainAll_frame (u : State) : u.drainAll = { u with banks := u.drainAll.banks } := by
  obtain ⟨banks, frame⟩ := u.drainTests_frame (allBanks.map fun b => (⟨b, 0⟩ : BufferId))
  rw [State.drainAll_eq, frame]

theorem State.heldBuffers_drainAll (u : State) : u.drainAll.heldBuffers = u.heldBuffers := by
  have frame := u.drainAll_frame
  generalize u.drainAll = v at frame ⊢
  generalize v.banks = banks at frame
  subst frame
  rfl

/-- With no buffer held every drain ends. -/
theorem State.banks_drainAll {u : State} (none_held : u.heldBuffers = []) (b : Fin 8) :
    u.drainAll.banks[b] = drainDone u.banks[b] := by
  obtain ⟨active, draining⟩ := u.drainTests_banks (allBanks.map fun b => (⟨b, 0⟩ : BufferId)) b
  rw [State.drainAll_eq]
  cases state : u.banks[b].state with
  | active => exact (active state).trans (drainDone_active state).symm
  | draining o =>
    have named : ∃ id ∈ allBanks.map (fun b => (⟨b, 0⟩ : BufferId)), id.bank = b :=
      ⟨⟨b, 0⟩, List.mem_map.mpr ⟨b, mem_allBanks b, rfl⟩, rfl⟩
    have empty : u.bankHeld b = 0 := by rw [State.bankHeld, none_held, List.countP_nil]
    exact ((draining o state).1 named empty).trans (drainDone_draining state).symm

/-! ## The egresses -/

/-- An egress after a STOP of it if it is RUNNING (R141). -/
def Egress.stopIfRunning (x : Egress) : Egress := if x.run = .running then x.stop else x

/-- A stop keeps the settings, the Continuity Table and the pointer; in another state the egress stays (R141). -/
theorem Egress.stopIfRunning_spec (x : Egress) :
    x.stopIfRunning.rate = x.rate ∧ x.stopIfRunning.policy = x.policy ∧ x.stopIfRunning.reserve = x.reserve ∧
    x.stopIfRunning.ageLimit = x.ageLimit ∧ x.stopIfRunning.offset = x.offset ∧
    x.stopIfRunning.continuity = x.continuity ∧ x.stopIfRunning.pointer = x.pointer ∧
    (x.run = .running → x.stopIfRunning.run = .stopping ∧ StreamEnded x x.stopIfRunning ∧
      x.stopIfRunning.acc = x.acc ∧ x.stopIfRunning.dueStamps = [] ∧ ∀ n : SlotId, x.stopIfRunning.queues[n] = []) ∧
    (x.run ≠ .running → x.stopIfRunning = x) := by
  unfold Egress.stopIfRunning
  split
  · next running =>
    obtain ⟨pointer, continuity, -, rate, policy, reserve, ageLimit, offset⟩ := x.stop_keeps
    obtain ⟨ended, acc, due, queues, run⟩ := x.stop_spec
    exact ⟨rate, policy, reserve, ageLimit, offset, continuity, pointer, fun _ => ⟨run, ended, acc, due, queues⟩,
      fun stopped => absurd running stopped⟩
  · next stopped =>
    exact ⟨rfl, rfl, rfl, rfl, rfl, rfl, rfl, fun running => absurd running stopped, fun _ => rfl⟩

/-- What a stop with its frees leaves when no capture is suspended. -/
theorem State.stopEgress_unsuspended {u : State} (e : Side) (still : ∀ c, (u.capture c).state ≠ .suspended) :
    u.stopEgress e =
      { u.setEgress e (u.egress e).stopIfRunning with banks := (u.stopEgress e).banks } ∧
    ∀ b : Fin 8, drainDone (u.stopEgress e).banks[b] = drainDone u.banks[b] := by
  by_cases running : (u.egress e).run = .running
  · rw [State.stopEgress_running running, Egress.stopIfRunning, if_pos running]
    have banks : (u.setEgress e (u.egress e).stop).banks = u.banks := by cases e <;> rfl
    have captures (c : CtxId) : (u.setEgress e (u.egress e).stop).capture c = u.capture c :=
      State.capture_setEgress u e _ c
    rw [← banks]
    generalize (u.egress e).buffers = freed
    generalize u.setEgress e (u.egress e).stop = v at captures
    obtain ⟨banks, -, capture⟩ := v.afterFree_spec freed
    have kept (c : CtxId) : (v.afterFree freed).capture c = v.capture c := by
      rw [capture, if_neg]
      rw [captures]
      exact fun suspended => still c suspended.1
    refine ⟨?_, fun b => ?_⟩
    · have frame := v.afterFree_one_frame freed
      have kept0 : (v.afterFree freed).capture0 = v.capture0 := kept .c0
      have kept1 : (v.afterFree freed).capture1 = v.capture1 := kept .c1
      rw [kept0, kept1] at frame
      exact frame
    · rw [banks]
      exact v.drainDone_drainTests freed b
  · rw [State.stopEgress_other running, Egress.stopIfRunning, if_neg running]
    refine ⟨?_, fun b => rfl⟩
    cases e <;> rfl

/-- An egress that keeps its law holds no buffer once it does not run. -/
theorem Egress.buffers_stopIfRunning {x : Egress} (law : x.Law) : x.stopIfRunning.buffers = [] := by
  have empty (n : SlotId) : x.stopIfRunning.queues[n] = [] := by
    unfold Egress.stopIfRunning
    split
    · exact x.stop_spec.2.2.2.1 n
    · next stopped => exact (law.2.2.2 stopped).2 n
  simp only [Egress.buffers, empty, List.map_nil]
  rfl

/-- Both egresses stopped, with no capture suspended. -/
theorem State.stopBoth_unsuspended {u : State} (still : ∀ c, (u.capture c).state ≠ .suspended) :
    (u.stopEgress .a).stopEgress .b = { u with
      egressA := u.egressA.stopIfRunning, egressB := u.egressB.stopIfRunning
      banks := ((u.stopEgress .a).stopEgress .b).banks } ∧
    ∀ b : Fin 8, drainDone ((u.stopEgress .a).stopEgress .b).banks[b] = drainDone u.banks[b] := by
  obtain ⟨frameA, banksA⟩ := State.stopEgress_unsuspended .a still
  generalize u.stopEgress .a = v at frameA banksA
  generalize v.banks = vBanks at frameA banksA
  subst frameA
  have still' (c : CtxId) : (State.capture { u.setEgress .a (u.egress .a).stopIfRunning with banks := vBanks } c).state ≠
      .suspended := by
    cases c with
    | c0 => exact still .c0
    | c1 => exact still .c1
  obtain ⟨frameB, banksB⟩ := State.stopEgress_unsuspended .b still'
  refine ⟨?_, fun b => (banksB b).trans (banksA b)⟩
  generalize State.stopEgress _ .b = w at frameB
  generalize w.banks = wBanks at frameB ⊢
  subst frameB
  rfl

/-! ## The reset as one state -/

/-- The datapath reset after its frees. -/
theorem State.clearRecords_zeroCounters (u : State) :
    u.zeroCounters.clearRecords = { u with
      slots := u.slots.map fun x => { x with counters := SlotCounters.zero }
      egressA := { u.egressA with counters := EgressCounters.zero }
      egressB := { u.egressB with counters := EgressCounters.zero }
      linkA := { u.linkA with counters := LinkCounters.zero }
      linkB := { u.linkB with counters := LinkCounters.zero }
      events := { u.events with latched := 0, pendingA := false, pendingB := false }
      snapshot := { u.snapshot with valid := false } } := rfl

theorem State.heldBuffers_clearRecords_zeroCounters (u : State) :
    u.zeroCounters.clearRecords.heldBuffers = u.heldBuffers := rfl

/-- The datapath reset before its drain tests. -/
theorem State.stopBoth_quiet (s : State) :
    (s.quiet.stopEgress .a).stopEgress .b = { s with
      slots := s.slots.map Slot.datapathReset
      egressA := s.egressA.stopIfRunning
      egressB := s.egressB.stopIfRunning
      capture0 := s.capture0.datapathReset
      capture1 := s.capture1.datapathReset
      banks := ((s.quiet.stopEgress .a).stopEgress .b).banks } ∧
    ∀ b : Fin 8, drainDone ((s.quiet.stopEgress .a).stopEgress .b).banks[b] = drainDone s.banks[b] := by
  have idle (c : CtxId) : (s.quiet.capture c).state = .idle := by cases c <;> rfl
  exact State.stopBoth_unsuspended fun c suspended => nomatch (idle c).symm.trans suspended

/-- What the datapath reset leaves, its banks aside, block by block (R185). -/
theorem State.datapathReset_spec {s : State} (units : s.UnitLaw) :
    s.datapathReset = { s with
      slots := (s.slots.map Slot.datapathReset).map fun x => { x with counters := SlotCounters.zero }
      banks := s.datapathReset.banks
      egressA := { s.egressA.stopIfRunning with counters := EgressCounters.zero }
      egressB := { s.egressB.stopIfRunning with counters := EgressCounters.zero }
      linkA := { s.linkA with counters := LinkCounters.zero }
      linkB := { s.linkB with counters := LinkCounters.zero }
      capture0 := s.capture0.datapathReset
      capture1 := s.capture1.datapathReset
      events := { s.events with latched := 0, pendingA := false, pendingB := false }
      snapshot := { s.snapshot with valid := false } } ∧
    s.datapathReset.heldBuffers = [] ∧ ∀ b : Fin 8, s.datapathReset.banks[b] = drainDone s.banks[b] := by
  obtain ⟨-, -, lawA, lawB⟩ := units
  obtain ⟨frame, drains⟩ := s.stopBoth_quiet
  rw [State.datapathReset, State.heldBuffers_clearRecords_zeroCounters, State.heldBuffers_drainAll,
    State.clearRecords_zeroCounters]
  generalize (s.quiet.stopEgress .a).stopEgress .b = u at frame drains
  generalize u.banks = uBanks at frame drains
  have held : u.heldBuffers = [] := by
    rw [frame]
    change s.egressA.stopIfRunning.buffers ++ s.egressB.stopIfRunning.buffers ++ [] ++ [] = []
    rw [Egress.buffers_stopIfRunning lawA, Egress.buffers_stopIfRunning lawB]
    rfl
  have banks (b : Fin 8) := State.banks_drainAll held b
  have drained := u.drainAll_frame
  generalize u.drainAll = v at drained banks ⊢
  generalize v.banks = vBanks at drained banks
  subst drained
  subst frame
  exact ⟨rfl, held, fun b => (banks b).trans (drains b)⟩

theorem summaryRecord_cleared {u : EventUnit} (none : u.latched = 0) : summaryRecord u = 0 := by
  have reported : reportedFlags u = 0 := by
    rw [reportedFlags, none]
    exact BitVec.zero_and
  simp only [summaryRecord, groupOr, summary, reported]
  decide

theorem State.heldBuffers_withAgent (u : State) (agent : Agent) :
    State.heldBuffers { u with agent := agent } = u.heldBuffers := rfl

/-- Settles O50, by the state that the datapath reset leaves. -/
theorem datapathResetByBlock : Obligations.DatapathResetByBlock := by
  intro l tag s serves units
  obtain ⟨t, ran, replied, same⟩ := served (c := .reset l tag) serves rfl
  obtain ⟨frame, held, banks⟩ := State.datapathReset_spec units
  have reset : t = { s.datapathReset with agent := t.agent } := same
  have held' : t.heldBuffers = [] := by
    rw [reset]
    exact (State.heldBuffers_withAgent _ _).trans held
  have egresses (e : Side) : t.egress e = { (s.egress e).stopIfRunning with counters := EgressCounters.zero } := by
    generalize s.datapathReset = u at frame reset
    generalize t.agent = agent at reset
    generalize u.banks = newBanks at frame
    subst frame
    rw [reset]
    cases e <;> rfl
  generalize s.datapathReset = u at frame banks reset
  generalize t.agent = agent at reset
  generalize u.banks = newBanks at frame banks
  subst frame
  refine ⟨t, ran, replied, summaryRecord_cleared ?latched, ?power, ?time, ?rf0, ?rf1, ?aux, ?routes, ?freeCount,
    ?pending, fun n => ?slot, held', fun b => ?bank, fun e => ?egress, fun k => ?link, fun c => ?capture, ?events,
    ?snapshot⟩
  case bank =>
    rw [reset]
    refine (banks b).trans ?_
    unfold drainDone
    rfl
  case egress =>
    rw [egresses]
    obtain ⟨rate, policy, reserve, ageLimit, offset, continuity, pointer, running, stopped⟩ :=
      (s.egress e).stopIfRunning_spec
    refine ⟨rfl, rate, policy, reserve, ageLimit, offset, continuity, pointer, running, fun other => ?_⟩
    rw [stopped other]
    rfl
  case slot =>
    rw [reset, ← Slot.toOff_eq]
    simp only [State.slot, Fin.getElem_fin, Vector.getElem_map]
    rfl
  case link =>
    rw [reset]
    cases k <;> rfl
  case capture =>
    rw [reset]
    cases c <;> rfl
  all_goals
    rw [reset]

end Sys2Proof.Machine
end
